-- ==== Sys2Proof/Word.lean ====
section
/-!
DEFINITION. The word types of the CORE. All quantities are unsigned (00_scope.md R7): a type is a width, and nothing here is
signed. Every wider access is put together from bytes in `Machine/Memory.lean` and `Machine/Ops.lean`.
-/

namespace Sys2Proof

/-- A byte: a general register, a memory cell, a timer (10_state.md R20). -/
abbrev Byte := BitVec 8

/-- A 16-bit word: `pc`, `I`, a stack entry, an instruction word (10_state.md R20, 30_encoding.md R70). -/
abbrev Word := BitVec 16

/-- A register number or any other one-digit operand field, "the plain 4-bit binary number" (30_encoding.md R73). -/
abbrev Nibble := BitVec 4

end Sys2Proof
end

