-- ==== Sys2Proof/Syntax.lean ====
section
/-!
DEFINITION. The instruction set: one constructor per row of spec/opcode_table.json, the 34 forms of 30_encoding.md R75 and no
other (00_scope.md R2). Operands are the fields of R71, each at its own width, in the order `X`, `Y`, then the immediate (R80).
-/

namespace Sys2Proof

/-- The 34 instruction forms (30_encoding.md R75). -/
inductive Instr where
  /-- `00E0` CLS: clear display (R141). -/
  | cls
  /-- `00EE` RET: return (R101). -/
  | ret
  /-- `1NNN` JP: jump (R102). -/
  | jp (nnn : BitVec 12)
  /-- `2NNN` CALL: call (R103). -/
  | call (nnn : BitVec 12)
  /-- `3XKK` SE_K: skip if equal to constant (R105). -/
  | seK (x : Nibble) (kk : Byte)
  /-- `4XKK` SNE_K: skip if not equal to constant (R106). -/
  | sneK (x : Nibble) (kk : Byte)
  /-- `5XY0` SE_V: skip if registers equal (R107). -/
  | seV (x y : Nibble)
  /-- `6XKK` LD_K: load constant (R111). -/
  | ldK (x : Nibble) (kk : Byte)
  /-- `7XKK` ADD_K: add constant (R112). -/
  | addK (x : Nibble) (kk : Byte)
  /-- `8XY0` LD_V: copy register (R113). -/
  | ldV (x y : Nibble)
  /-- `8XY1` OR (R114). -/
  | orV (x y : Nibble)
  /-- `8XY2` AND (R115). -/
  | andV (x y : Nibble)
  /-- `8XY3` XOR (R116). -/
  | xorV (x y : Nibble)
  /-- `8XY4` ADD_V: add with carry out (R117). -/
  | addV (x y : Nibble)
  /-- `8XY5` SUB: `Vx - Vy` (R118). -/
  | sub (x y : Nibble)
  /-- `8XY6` SHR: shift right by one (R119). -/
  | shr (x y : Nibble)
  /-- `8XY7` SUBN: `Vy - Vx` (R120). -/
  | subn (x y : Nibble)
  /-- `8XYE` SHL: shift left by one (R121). -/
  | shl (x y : Nibble)
  /-- `9XY0` SNE_V: skip if registers differ (R108). -/
  | sneV (x y : Nibble)
  /-- `ANNN` LD_I: load index (R130). -/
  | ldI (nnn : BitVec 12)
  /-- `BNNN` JP_V0: jump to `V0 + nnn` (R104). -/
  | jpV0 (nnn : BitVec 12)
  /-- `CXKK` RND: random and mask (R122). -/
  | rnd (x : Nibble) (kk : Byte)
  /-- `DXYN` DRW: draw sprite of `n` rows (R143). -/
  | drw (x y n : Nibble)
  /-- `EX9E` SKP: skip if key pressed (R150). -/
  | skp (x : Nibble)
  /-- `EXA1` SKNP: skip if key not pressed (R151). -/
  | sknp (x : Nibble)
  /-- `FX07` LD_V_DT: read delay timer (R152). -/
  | ldVDt (x : Nibble)
  /-- `FX0A` LD_V_KEY: wait for key (R153). -/
  | ldVKey (x : Nibble)
  /-- `FX15` LD_DT_V: set delay timer (R155). -/
  | ldDtV (x : Nibble)
  /-- `FX18` LD_ST_V: set sound timer (R156). -/
  | ldStV (x : Nibble)
  /-- `FX1E` ADD_I: add to index (R131). -/
  | addI (x : Nibble)
  /-- `FX29` LD_F: index of glyph (R132). -/
  | ldF (x : Nibble)
  /-- `FX33` LD_B: store decimal digits (R133). -/
  | ldB (x : Nibble)
  /-- `FX55` ST_REGS: store `V0..Vx` (R134). -/
  | stRegs (x : Nibble)
  /-- `FX65` LD_REGS: load `V0..Vx` (R135). -/
  | ldRegs (x : Nibble)
deriving DecidableEq, Repr

end Sys2Proof
end

