-- ==== Sys2Proof/Decode.lean ====
section
/-!
DEFINITION. The decoder and the encoder, both from 30_encoding.md, and the opcode map R75 as data of its own.
Decoding is strict: a word selects a form exactly when every fixed hex digit of the form matches (R74, decision D6, log 7).
-/

namespace Sys2Proof

/-! ## The fields of an instruction word (30_encoding.md R71) -/

/-- `OP`, bits 15:12. -/
def fieldOP (w : Word) : Nibble := w.extractLsb' 12 4

/-- `X`, bits 11:8. -/
def fieldX (w : Word) : Nibble := w.extractLsb' 8 4

/-- `Y`, bits 7:4. -/
def fieldY (w : Word) : Nibble := w.extractLsb' 4 4

/-- `N`, bits 3:0. -/
def fieldN (w : Word) : Nibble := w.extractLsb' 0 4

/-- `KK`, bits 7:0. -/
def fieldKK (w : Word) : Byte := w.extractLsb' 0 8

/-- `NNN`, bits 11:0. -/
def fieldNNN (w : Word) : BitVec 12 := w.extractLsb' 0 12

/-! ## Decoding (R74, R75), "by its high nibble (and, for ambiguous families, further nibbles/bytes)" -/

/-- The forms of high nibble 0. -/
def decode0 (w : Word) : Option Instr :=
  match w with
  | 0x00E0#16 => some .cls
  | 0x00EE#16 => some .ret
  | _ => none

/-- The forms `5XY0` (and, with its own constructor, `9XY0`): the low nibble must be 0. -/
def decodeXY0 (w : Word) (form : Nibble → Nibble → Instr) : Option Instr :=
  match fieldN w with
  | 0x0#4 => some (form (fieldX w) (fieldY w))
  | _ => none

/-- The forms `8XY0` to `8XY7` and `8XYE`. -/
def decode8 (w : Word) : Option Instr :=
  match fieldN w with
  | 0x0#4 => some (.ldV (fieldX w) (fieldY w))
  | 0x1#4 => some (.orV (fieldX w) (fieldY w))
  | 0x2#4 => some (.andV (fieldX w) (fieldY w))
  | 0x3#4 => some (.xorV (fieldX w) (fieldY w))
  | 0x4#4 => some (.addV (fieldX w) (fieldY w))
  | 0x5#4 => some (.sub (fieldX w) (fieldY w))
  | 0x6#4 => some (.shr (fieldX w) (fieldY w))
  | 0x7#4 => some (.subn (fieldX w) (fieldY w))
  | 0xE#4 => some (.shl (fieldX w) (fieldY w))
  | _ => none

/-- The forms `EX9E` and `EXA1`. -/
def decodeE (w : Word) : Option Instr :=
  match fieldKK w with
  | 0x9E#8 => some (.skp (fieldX w))
  | 0xA1#8 => some (.sknp (fieldX w))
  | _ => none

/-- The nine forms of high nibble F. -/
def decodeF (w : Word) : Option Instr :=
  match fieldKK w with
  | 0x07#8 => some (.ldVDt (fieldX w))
  | 0x0A#8 => some (.ldVKey (fieldX w))
  | 0x15#8 => some (.ldDtV (fieldX w))
  | 0x18#8 => some (.ldStV (fieldX w))
  | 0x1E#8 => some (.addI (fieldX w))
  | 0x29#8 => some (.ldF (fieldX w))
  | 0x33#8 => some (.ldB (fieldX w))
  | 0x55#8 => some (.stRegs (fieldX w))
  | 0x65#8 => some (.ldRegs (fieldX w))
  | _ => none

/-- Decode one instruction word: one of the 34 forms, or `none`, the verdict `UNKNOWN` (R74, R92). The last arm is the one high
nibble left, F. -/
def decodeWord (w : Word) : Option Instr :=
  match fieldOP w with
  | 0x0#4 => decode0 w
  | 0x1#4 => some (.jp (fieldNNN w))
  | 0x2#4 => some (.call (fieldNNN w))
  | 0x3#4 => some (.seK (fieldX w) (fieldKK w))
  | 0x4#4 => some (.sneK (fieldX w) (fieldKK w))
  | 0x5#4 => decodeXY0 w .seV
  | 0x6#4 => some (.ldK (fieldX w) (fieldKK w))
  | 0x7#4 => some (.addK (fieldX w) (fieldKK w))
  | 0x8#4 => decode8 w
  | 0x9#4 => decodeXY0 w .sneV
  | 0xA#4 => some (.ldI (fieldNNN w))
  | 0xB#4 => some (.jpV0 (fieldNNN w))
  | 0xC#4 => some (.rnd (fieldX w) (fieldKK w))
  | 0xD#4 => some (.drw (fieldX w) (fieldY w) (fieldN w))
  | 0xE#4 => decodeE w
  | _ => decodeF w

/-- Why a byte sequence holds no instruction at its front. -/
inductive DecodeReject where
  /-- Fewer than the two bytes every instruction has (R70). -/
  | truncated
  /-- A word that selects no form (R76). -/
  | unknownWord (w : Word)
deriving DecidableEq, Repr

/-- Two bytes in memory order make a word, high byte first (20_memory.md R58). -/
def wordOfBytes (hi lo : Byte) : Word := hi ++ lo

/-- Decode the instruction at the front of any byte sequence, and give the rest of it; "a decoder always consumes two bytes" (R70). -/
def decode : List Byte → Except DecodeReject (Instr × List Byte)
  | hi :: lo :: rest =>
    match decodeWord (wordOfBytes hi lo) with
    | some i => .ok (i, rest)
    | none => .error (.unknownWord (wordOfBytes hi lo))
  | _ => .error .truncated

/-! ## Encoding: the formats R72 and the fixed digits of R75 -/

/-- Format NNN. -/
def wordNNN (op : Nibble) (nnn : BitVec 12) : Word := op ++ nnn

/-- Format XKK, and format X with its function code as the low byte. -/
def wordXKK (op x : Nibble) (kk : Byte) : Word := op ++ (x ++ kk : BitVec 12)

/-- Format XY with its function code as the low nibble, and format XYN. -/
def wordXYN (op x y n : Nibble) : Word := op ++ (x ++ (y ++ n : BitVec 8) : BitVec 12)

/-- The one word of an instruction (R82: substitute the operands into the form's letter positions). -/
def encodeWord : Instr → Word
  | .cls => 0x00E0#16
  | .ret => 0x00EE#16
  | .jp nnn => wordNNN 0x1#4 nnn
  | .call nnn => wordNNN 0x2#4 nnn
  | .seK x kk => wordXKK 0x3#4 x kk
  | .sneK x kk => wordXKK 0x4#4 x kk
  | .seV x y => wordXYN 0x5#4 x y 0x0#4
  | .ldK x kk => wordXKK 0x6#4 x kk
  | .addK x kk => wordXKK 0x7#4 x kk
  | .ldV x y => wordXYN 0x8#4 x y 0x0#4
  | .orV x y => wordXYN 0x8#4 x y 0x1#4
  | .andV x y => wordXYN 0x8#4 x y 0x2#4
  | .xorV x y => wordXYN 0x8#4 x y 0x3#4
  | .addV x y => wordXYN 0x8#4 x y 0x4#4
  | .sub x y => wordXYN 0x8#4 x y 0x5#4
  | .shr x y => wordXYN 0x8#4 x y 0x6#4
  | .subn x y => wordXYN 0x8#4 x y 0x7#4
  | .shl x y => wordXYN 0x8#4 x y 0xE#4
  | .sneV x y => wordXYN 0x9#4 x y 0x0#4
  | .ldI nnn => wordNNN 0xA#4 nnn
  | .jpV0 nnn => wordNNN 0xB#4 nnn
  | .rnd x kk => wordXKK 0xC#4 x kk
  | .drw x y n => wordXYN 0xD#4 x y n
  | .skp x => wordXKK 0xE#4 x 0x9E#8
  | .sknp x => wordXKK 0xE#4 x 0xA1#8
  | .ldVDt x => wordXKK 0xF#4 x 0x07#8
  | .ldVKey x => wordXKK 0xF#4 x 0x0A#8
  | .ldDtV x => wordXKK 0xF#4 x 0x15#8
  | .ldStV x => wordXKK 0xF#4 x 0x18#8
  | .addI x => wordXKK 0xF#4 x 0x1E#8
  | .ldF x => wordXKK 0xF#4 x 0x29#8
  | .ldB x => wordXKK 0xF#4 x 0x33#8
  | .stRegs x => wordXKK 0xF#4 x 0x55#8
  | .ldRegs x => wordXKK 0xF#4 x 0x65#8

/-- The high byte of a word, the one stored at the lower address (20_memory.md R58). -/
def highByte (w : Word) : Byte := w.extractLsb' 8 8

/-- The low byte of a word. -/
def lowByte (w : Word) : Byte := w.extractLsb' 0 8

/-- The two bytes of an instruction in memory order (R70). -/
def encode (i : Instr) : List Byte := [highByte (encodeWord i), lowByte (encodeWord i)]

/-! ## The opcode map R75 as rows, apart from the decoder -/

/-- One row of the opcode map: "the word `w` selects a form when `(w & mask) = match`" (R74); `pattern` is the column `match`. -/
structure OpcodeRow where
  /-- The spec's mnemonic (R81). -/
  mnemonic : String
  /-- The column match of R75. -/
  pattern : Word
  /-- The column mask of R75. -/
  mask : Word
deriving DecidableEq, Repr

/-- The row of R75 an instruction belongs to. -/
def Instr.row : Instr → OpcodeRow
  | .cls => ⟨"CLS", 0x00E0#16, 0xFFFF#16⟩
  | .ret => ⟨"RET", 0x00EE#16, 0xFFFF#16⟩
  | .jp _ => ⟨"JP", 0x1000#16, 0xF000#16⟩
  | .call _ => ⟨"CALL", 0x2000#16, 0xF000#16⟩
  | .seK _ _ => ⟨"SE_K", 0x3000#16, 0xF000#16⟩
  | .sneK _ _ => ⟨"SNE_K", 0x4000#16, 0xF000#16⟩
  | .seV _ _ => ⟨"SE_V", 0x5000#16, 0xF00F#16⟩
  | .ldK _ _ => ⟨"LD_K", 0x6000#16, 0xF000#16⟩
  | .addK _ _ => ⟨"ADD_K", 0x7000#16, 0xF000#16⟩
  | .ldV _ _ => ⟨"LD_V", 0x8000#16, 0xF00F#16⟩
  | .orV _ _ => ⟨"OR", 0x8001#16, 0xF00F#16⟩
  | .andV _ _ => ⟨"AND", 0x8002#16, 0xF00F#16⟩
  | .xorV _ _ => ⟨"XOR", 0x8003#16, 0xF00F#16⟩
  | .addV _ _ => ⟨"ADD_V", 0x8004#16, 0xF00F#16⟩
  | .sub _ _ => ⟨"SUB", 0x8005#16, 0xF00F#16⟩
  | .shr _ _ => ⟨"SHR", 0x8006#16, 0xF00F#16⟩
  | .subn _ _ => ⟨"SUBN", 0x8007#16, 0xF00F#16⟩
  | .shl _ _ => ⟨"SHL", 0x800E#16, 0xF00F#16⟩
  | .sneV _ _ => ⟨"SNE_V", 0x9000#16, 0xF00F#16⟩
  | .ldI _ => ⟨"LD_I", 0xA000#16, 0xF000#16⟩
  | .jpV0 _ => ⟨"JP_V0", 0xB000#16, 0xF000#16⟩
  | .rnd _ _ => ⟨"RND", 0xC000#16, 0xF000#16⟩
  | .drw _ _ _ => ⟨"DRW", 0xD000#16, 0xF000#16⟩
  | .skp _ => ⟨"SKP", 0xE09E#16, 0xF0FF#16⟩
  | .sknp _ => ⟨"SKNP", 0xE0A1#16, 0xF0FF#16⟩
  | .ldVDt _ => ⟨"LD_V_DT", 0xF007#16, 0xF0FF#16⟩
  | .ldVKey _ => ⟨"LD_V_KEY", 0xF00A#16, 0xF0FF#16⟩
  | .ldDtV _ => ⟨"LD_DT_V", 0xF015#16, 0xF0FF#16⟩
  | .ldStV _ => ⟨"LD_ST_V", 0xF018#16, 0xF0FF#16⟩
  | .addI _ => ⟨"ADD_I", 0xF01E#16, 0xF0FF#16⟩
  | .ldF _ => ⟨"LD_F", 0xF029#16, 0xF0FF#16⟩
  | .ldB _ => ⟨"LD_B", 0xF033#16, 0xF0FF#16⟩
  | .stRegs _ => ⟨"ST_REGS", 0xF055#16, 0xF0FF#16⟩
  | .ldRegs _ => ⟨"LD_REGS", 0xF065#16, 0xF0FF#16⟩

/-- `w` selects the row `r` (R74). -/
def OpcodeRow.selects (r : OpcodeRow) (w : Word) : Bool := w &&& r.mask == r.pattern

/-! ## The table's own numbering of an instruction's bits -/

/-- The bits `w` of one instruction, bit 0 the least significant bit of its one word, `nbits` of them given and every bit above 0:
laid out in memory order and given to the decoder. -/
def decodeTableWord (nbits w : Nat) : Option Instr :=
  let word := BitVec.ofNat 16 (w % 2 ^ nbits)
  match decode [highByte word, lowByte word] with
  | .ok (i, _) => some i
  | .error _ => none

end Sys2Proof
end

