-- ==== Sys2Proof/Machine/Flags.lean ====
section
/-!
DEFINITION. The flag values. `VF` is the only flag, and six forms write it (10_state.md R22); each value is computed from the
operands as they were before the instruction, on exact natural numbers (42_alu.md R123).
-/

namespace Sys2Proof.Machine

/-- A flag is always exactly 0 or 1 (10_state.md R22). -/
def flagByte (b : Bool) : Byte := if b then 1 else 0

/-- `8XY4`: carry, the exact sum exceeds 255 (42_alu.md R117, R123). -/
def carryFlag (a b : Byte) : Bool := a.toNat + b.toNat > 255

/-- `8XY5` as `noBorrowFlag a b`, `8XY7` as `noBorrowFlag b a`: the subtraction `a - b` needs no borrow (42_alu.md R118, R120, R123). -/
def noBorrowFlag (a b : Byte) : Bool := a.toNat ≥ b.toNat

/-- `8XY6`: the bit a right shift by one drops, bit 0 (42_alu.md R119). -/
def shiftedOutRight (s : Byte) : Bool := s.getLsbD 0

/-- `8XYE`: the bit a left shift by one drops, bit 7 (42_alu.md R121). -/
def shiftedOutLeft (s : Byte) : Bool := s.getLsbD 7

end Sys2Proof.Machine
end

