-- ==== Sys2Proof/Config.lean ====
section
/-!
DEFINITION. What an implementation fixes: the sizes of 00_scope.md R5, the types of the parameters of R6, and the free values, which
have no body, so that nothing can be proved of their values. The parameters themselves are carried by the state
(`Machine/Params.lean`, log 32), so that every meaning takes them as arguments.
-/

namespace Sys2Proof.Config

/-- `MEM_SIZE`: bytes of memory (R5). -/
abbrev memSize : Nat := 4096

/-- First address above the glyph table, `GLYPH_END + 1` (R5): the table is `[0x000, 0x050)`. -/
abbrev glyphEnd : Nat := 0x050

/-- `GLYPH_STRIDE`: bytes of one glyph (R5). -/
abbrev glyphStride : Nat := 5

/-- `LOAD_BASE`: where a program is loaded (R5). -/
abbrev loadBase : Nat := 0x200

/-- `PC_RESET` (R5). -/
abbrev pcReset : Nat := 0x200

/-- `STACK_DEPTH` (R5). -/
abbrev stackDepth : Nat := 16

/-- The most bytes a program may have: `0x1000 - 0x200` (20_memory.md R57). -/
abbrev programCapacity : Nat := 3584

/-- `DISPLAY_W` (R5). -/
abbrev displayW : Nat := 64

/-- `DISPLAY_H` (R5). -/
abbrev displayH : Nat := 32

/-- The values of the parameter `SHIFT_SRC` (R6): which register `8XY6` and `8XYE` shift. -/
inductive ShiftSrc where
  /-- The shifts read `V[Y]`, the value of this hardware (42_alu.md R119). -/
  | vy
  /-- The shifts read `V[X]`, the other convention. -/
  | vx
deriving DecidableEq, Repr

/-- The parameter `GLYPH_ROM` (R6): the 80 bytes at 0x000 to 0x04F. -/
abbrev GlyphRom := Vector Byte 80

/-- The values of the parameter `KEY_PICK` (R6): which key `FX0A` reports when several go down in the same cycle, "default lowest ... or
any value among the keys that went down" (93_implementation_defined.md U4). -/
inductive KeyPick where
  /-- The lowest key number, the default. -/
  | lowest
  /-- Any pick at all, as data: what it answers for the sets of keys listed (the lowest for a set not listed). -/
  | table (answers : List (BitVec 16 × Nibble))
  /-- "Any value among the keys that went down": a free value at each wait's end. -/
  | any
deriving DecidableEq, Repr

/-- FREE VALUE (log 10): the key taken when the pick is `any`, for the `n`-th draw and the set of keys that went down. -/
opaque freePick : Nat → BitVec 16 → Nibble

/-- FREE VALUE (log 2): the key snapshot the host supplies with the `n`-th unscripted `Step`. -/
opaque freeKeys : Nat → BitVec 16

/-- FREE VALUE (log 2, log 11): the random byte the host supplies with the `n`-th unscripted `Step`, "a free input ... under no law" (R6, D10). -/
opaque freeRnd : Nat → Byte

/-- FREE VALUE (log 2): how many `Tick` events come before the `n`-th unscripted `Step` (60_exceptions.md R182: zero, one or many). -/
opaque freeTicks : Nat → Nat

/-- FREE VALUE (log 2): whether the host issues a `RenderAck` before the `n`-th unscripted `Step` (60_exceptions.md R190). -/
opaque freeAck : Nat → Bool

end Sys2Proof.Config
end

