-- ==== Sys2Proof/Machine/Params.lean ====
section
/-!
DEFINITION. The parameters of 00_scope.md R6 that a machine is built with, "each with the value this spec fixes as default". They are
fixed for a machine: `State.params` holds them, every meaning reads them there, and no event changes them (log 32). The other two
parameters of R6, `rnd` and the schedule, are inputs: `HostEvent` and, for an unscripted host, the free values of Config.
-/

namespace Sys2Proof.Machine

/-! ## The defaults -/

/-- The default of `SHIFT_SRC`: `VY`, the document's own choice (00_scope.md R6, decision D20, log 21). -/
def shiftSrc : Config.ShiftSrc := .vy

/-- The default of `KEY_PICK`: the lowest key number (00_scope.md R6, decision D9, log 10). -/
def keyPick : Config.KeyPick := .lowest

/-- The five rows of each glyph, digits 0 to 7. PRESUMED: the spec's default table, "from general knowledge, not in source" (log 13). -/
def glyphs0to7 : List Byte :=
  [0xF0, 0x90, 0x90, 0x90, 0xF0] ++
  [0x20, 0x60, 0x20, 0x20, 0x70] ++
  [0xF0, 0x10, 0xF0, 0x80, 0xF0] ++
  [0xF0, 0x10, 0xF0, 0x10, 0xF0] ++
  [0x90, 0x90, 0xF0, 0x10, 0x10] ++
  [0xF0, 0x80, 0xF0, 0x10, 0xF0] ++
  [0xF0, 0x80, 0xF0, 0x90, 0xF0] ++
  [0xF0, 0x10, 0x20, 0x40, 0x40]

/-- The five rows of each glyph, digits 8 to F. PRESUMED as `glyphs0to7` (log 13). -/
def glyphs8toF : List Byte :=
  [0xF0, 0x90, 0xF0, 0x90, 0xF0] ++
  [0xF0, 0x90, 0xF0, 0x10, 0xF0] ++
  [0xF0, 0x90, 0xF0, 0x90, 0x90] ++
  [0xE0, 0x90, 0xE0, 0x90, 0xE0] ++
  [0xF0, 0x80, 0x80, 0x80, 0xF0] ++
  [0xE0, 0x90, 0x90, 0x90, 0xE0] ++
  [0xF0, 0x80, 0xF0, 0x80, 0xF0] ++
  [0xF0, 0x80, 0xF0, 0x80, 0x80]

/-- The default of `GLYPH_ROM`: 16 glyphs of 5 bytes from address 0x000 (20_memory.md R53, R56). -/
def glyphRom : Config.GlyphRom := ⟨⟨glyphs0to7 ++ glyphs8toF⟩, rfl⟩

/-! ## The parameters of a machine -/

/-- The parameters a machine is built with (R6). -/
structure Params where
  /-- `SHIFT_SRC`: the source register of `8XY6` and `8XYE`. -/
  shiftSrc : Config.ShiftSrc
  /-- `GLYPH_ROM`: the bytes at 0x000 to 0x04F. -/
  glyphRom : Config.GlyphRom
  /-- `KEY_PICK`: the key `FX0A` reports when several go down in the same cycle. -/
  keyPick : Config.KeyPick
deriving DecidableEq, Repr

/-- Every parameter at the value the spec fixes as default. -/
def defaultParams : Params where
  shiftSrc := Sys2Proof.Machine.shiftSrc
  glyphRom := Sys2Proof.Machine.glyphRom
  keyPick := Sys2Proof.Machine.keyPick

end Sys2Proof.Machine
end

