-- ==== Sys2Proof/Machine/State.lean ====
section
/-!
DEFINITION. The state of the CORE as plain data: the fourteen elements of 10_state.md R20 under their own names, the parameters
of the machine (R6), and the host's side of the ports (the last six fields); the last seven fields are the model's own. INVENTORY.md lists each with its width, rule and reset value.
-/

namespace Sys2Proof.Machine

/-- The fatal conditions, in the order of their codes 1 to 3 (60_exceptions.md R170). `NONE` is the absence of one. -/
inductive Fatal where
  /-- `2NNN` with `SP = 16` (R171). -/
  | stackOverflow
  /-- `00EE` with `SP = 0` (R174). -/
  | stackUnderflow
  /-- A `Load` of more than 3584 bytes (R175). -/
  | capacityExceeded
deriving DecidableEq, Repr

/-- The three values of `run` (10_state.md R36). -/
inductive RunState where
  /-- `RUN`: the next `Step` fetches and executes. -/
  | run
  /-- `WAIT`: suspended in an `FX0A`; the next `Step` polls the keys. -/
  | wait
  /-- `HALT`: a fatal condition was raised; `Step` has no effect. -/
  | halt
deriving DecidableEq, Repr

/-- The five events of the host interface (60_exceptions.md R185). -/
inductive HostEvent where
  /-- `Reset` (70_reset_and_hazards.md R200). -/
  | reset
  /-- `Load(bytes)` (20_memory.md R57). -/
  | load (bytes : List Byte)
  /-- `Step(keys, rnd)` (40_cycle.md R90). -/
  | step (keys : BitVec 16) (rnd : Byte)
  /-- `Tick` (60_exceptions.md R181). -/
  | tick
  /-- `RenderAck` (60_exceptions.md R190). -/
  | renderAck
deriving DecidableEq, Repr

/-- One event `diag(pc, w)` of the diagnostic port: "12-bit address, 16-bit word" (60_exceptions.md R176, R185). -/
structure DiagEvent where
  /-- The address the word was fetched from. -/
  pc : BitVec 12
  /-- The unknown word. -/
  w : Word
deriving DecidableEq, Repr

/-- Memory as address and byte pairs; its canonical form and what an unlisted address reads as are in `Machine/Memory.lean`. -/
abbrev Memory := List Host.Cell

/-- Everything the spec gives the machine (10_state.md R20), and the host's side of its ports. -/
structure State where
  /-- General registers `V[0..15]`; `V[15]` is `VF` (R21, R22). -/
  V : Vector Byte 16
  /-- Index register (R26). -/
  I : Word
  /-- Program counter (R23, R24). -/
  pc : Word
  /-- Call stack (R27). -/
  stack : Vector Word 16
  /-- Stack pointer, the number of entries held, 0 to 16 (R28). -/
  SP : Fin 17
  /-- Delay timer (R31). -/
  DT : Byte
  /-- Sound timer (R32). -/
  ST : Byte
  /-- Memory (R33). -/
  mem : Memory
  /-- Display buffer: row `y`, bit `x` is `px[y][x]`, 1 = set (R34). -/
  px : Vector (BitVec 64) 32
  /-- The render-needed signal (R35). -/
  renderNeeded : Bool
  /-- Running, suspended or stopped (R36). -/
  run : RunState
  /-- The condition that stopped the core; `none` is `NONE` (R37). -/
  fault : Option Fatal
  /-- The `X` field of the `FX0A` the core is suspended in (R38). -/
  waitX : Nibble
  /-- The key snapshot of the previous `Step` of the current wait (R38). -/
  keysPrev : BitVec 16
  /-- THE MODEL'S OWN: the parameters this machine was built with (00_scope.md R6); no event changes them (log 32). -/
  params : Params
  /-- THE MODEL'S OWN: the key port as the current `Step` sees it, bit `k` = key `k` pressed (R39). -/
  keys : BitVec 16
  /-- THE MODEL'S OWN: the random port as the current `Step` sees it (R39). -/
  rnd : Byte
  /-- THE MODEL'S OWN: the host events still to come, oldest first (log 1). -/
  pending : List HostEvent
  /-- THE MODEL'S OWN: how many times free values were drawn; it indexes them (log 2, log 10). -/
  draws : Nat
  /-- THE MODEL'S OWN: the `diag` events emitted so far, oldest first (60_exceptions.md R192, log 15). -/
  diag : List DiagEvent
  /-- THE MODEL'S OWN: a `Load` has a meaning now: after `Reset`, before any `Load` or `Step` (70_reset_and_hazards.md R202, log 16). -/
  loadOpen : Bool
deriving DecidableEq, Repr

/-- No step of this machine ends in a fault, so there is no reason to name: the spec describes the state that each of its
conditions leaves (60_exceptions.md R172, R175, R176), and that state is a next state of the model (log 14). -/
inductive Fault where
deriving DecidableEq, Repr

/-- Why the model gives a step no meaning. -/
inductive Refusal where
  /-- Raised by `exec` for an instruction without a meaning (none is left). Safe: nothing is claimed of it. -/
  | notModelled (mnemonic : String)
  /-- Raised by the event `Load` after a `Load` or a `Step`: "this spec gives no meaning" to it (70_reset_and_hazards.md R202,
  60_exceptions.md R193, decision D15). Safe: nothing is claimed of what follows. -/
  | loadNotOpen
deriving DecidableEq, Repr

/-- The state right after `Reset` (10_state.md R41), with every parameter at its default (R6) and no host
event pending. Memory lists nothing: every byte reads as its
reset value. -/
def State.reset : State where
  V := Vector.replicate 16 0
  I := 0
  pc := BitVec.ofNat 16 Config.pcReset
  stack := Vector.replicate 16 0
  SP := 0
  DT := 0
  ST := 0
  mem := []
  px := Vector.replicate 32 0
  renderNeeded := false
  run := .run
  fault := none
  waitX := 0
  keysPrev := 0
  params := defaultParams
  keys := 0
  rnd := 0
  pending := []
  draws := 0
  diag := []
  loadOpen := true

/-- The state right after `Reset` of a machine built with the parameters `p` (R6). -/
def State.resetWith (p : Params) : State := { State.reset with params := p }

end Sys2Proof.Machine
end

