-- ==== Sys2Proof/Machine/Memory.lean ====
section
/-!
DEFINITION. Memory: 4096 bytes, byte addressed, every address masked to 12 bits, the first 80 bytes a read-only glyph table
(20_memory.md). It is held as the list of the bytes that differ from their reset value, in one canonical form; the
glyph table, a parameter (R6), is an argument of every operation.
-/

namespace Sys2Proof.Machine

/-! ## Reset contents and the canonical form -/

/-- What address `a` (below 4096) holds after `Reset`, and reads as while the list has no entry for it: `GLYPH_ROM` below 0x050, 0x00
above (10_state.md R41; zero is decision D2, log 3). -/
def resetByte (rom : Config.GlyphRom) (a : Nat) : Byte :=
  if h : a < Config.glyphEnd then rom[a]'h else 0

/-- The 12-bit mask of every access (20_memory.md R51). -/
def maskAddr (a : Nat) : Nat := a % Config.memSize

/-- The canonical form: addresses strictly rising and below 4096, and no entry equal to what its address reads as unlisted. -/
abbrev Memory.wf (m : Memory) (rom : Config.GlyphRom) : Prop :=
  m.Pairwise (fun c d => c.1 < d.1) ∧ ∀ c ∈ m, c.1 < Config.memSize ∧ c.2 ≠ resetByte rom c.1

/-- The glyph table stands as it was loaded: no address of it is listed (10_state.md R42(d)). -/
abbrev Memory.glyphIntact (m : Memory) : Prop := ∀ c ∈ m, Config.glyphEnd ≤ c.1

/-! ## One byte -/

/-- The byte at an address already masked. -/
def Memory.lookup (rom : Config.GlyphRom) : Memory → Nat → Byte
  | [], a => resetByte rom a
  | c :: m, a => if c.1 = a then c.2 else Memory.lookup rom m a

/-- `MemRead(a, 1)`: `mem[a mod 4096]`; no address fault, no side effect (20_memory.md R51). -/
def Memory.read (m : Memory) (rom : Config.GlyphRom) (a : Nat) : Byte := m.lookup rom (maskAddr a)

/-- Put a cell before the first larger address. -/
def Memory.insert (c : Host.Cell) : Memory → Memory
  | [] => [c]
  | d :: m => if c.1 < d.1 then c :: d :: m else d :: Memory.insert c m

/-- Drop whatever is listed at an address. -/
def Memory.erase (m : Memory) (a : Nat) : Memory := m.filter (fun c => c.1 != a)

/-- Make the cell at the masked address hold `v`, glyph table or not, and keep the canonical form. -/
def Memory.poke (m : Memory) (rom : Config.GlyphRom) (a : Nat) (v : Byte) : Memory :=
  let cleared := m.erase (maskAddr a)
  if v = resetByte rom (maskAddr a) then cleared else cleared.insert (maskAddr a, v)

/-- `MemWrite(a, 1, v)`: discarded at 0x000 to 0x04F, stored elsewhere; no write faults (20_memory.md R52, R55). -/
def Memory.write (m : Memory) (rom : Config.GlyphRom) (a : Nat) (v : Byte) : Memory :=
  if maskAddr a < Config.glyphEnd then m else m.poke rom a v

/-! ## Several bytes, one at a time, each address masked on its own (20_memory.md R61, R62) -/

/-- Store a sequence at consecutive addresses, the first at `a`, in increasing order. -/
def Memory.writeBytes (m : Memory) (rom : Config.GlyphRom) (a : Nat) : List Byte → Memory
  | [] => m
  | b :: bs => Memory.writeBytes (m.write rom a b) rom (a + 1) bs

/-- The `n` bytes from `a` on. -/
def Memory.readBytes (m : Memory) (rom : Config.GlyphRom) (a : Nat) : Nat → List Byte
  | 0 => []
  | n + 1 => m.read rom a :: Memory.readBytes m rom (a + 1) n

/-- `MemRead(a, 2)`: two byte reads, high byte first, each address masked (20_memory.md R58). -/
def Memory.readWord (m : Memory) (rom : Config.GlyphRom) (a : Nat) : Word := m.read rom a ++ m.read rom (a + 1)

end Sys2Proof.Machine
end

