-- ==== Sys2Proof/Machine/Ops.lean ====
section
/-!
DEFINITION. The named operations every meaning is built from: registers, `pc`, `I`, memory, the call stack, raising a fatal
condition (the machine's one way of taking an exception) and the diagnostic event. The primitives are those of 00_scope.md R8.
-/

namespace Sys2Proof.Machine

/-! ## General registers (10_state.md R21) -/

/-- `V[r]`. -/
def State.readV (s : State) (r : Nibble) : Byte := s.V[r.toNat]'r.isLt

/-- `V[r] <- v`. -/
def State.writeV (s : State) (r : Nibble) (v : Byte) : State :=
  { s with V := s.V.set r.toNat v r.isLt }

/-- `VF <- flag` (10_state.md R22). -/
def State.writeFlag (s : State) (b : Bool) : State := s.writeV 15 (flagByte b)

/-! ## Program counter and index register -/

/-- `pc <- t`: every write stores `t mod 4096` (10_state.md R24, decision D3, log 4). -/
def State.setPc (s : State) (t : Nat) : State :=
  { s with pc := BitVec.ofNat 16 (t % Config.memSize) }

/-- `next`: `pc <- pc + 2` (00_scope.md R8). -/
def State.advance (s : State) : State := s.setPc (s.pc.toNat + 2)

/-- `skip`: `pc <- pc + 4` (00_scope.md R8). -/
def State.skip (s : State) : State := s.setPc (s.pc.toNat + 4)

/-- The conditional skips: `pc + 4` when the condition holds, else `pc + 2` (10_state.md R25). -/
def State.skipIf (s : State) (c : Bool) : State := if c then s.skip else s.advance

/-- `I <- v`: every write stores `v mod 4096` (00_scope.md R8, 10_state.md R26). -/
def State.setI (s : State) (v : Nat) : State :=
  { s with I := BitVec.ofNat 16 (v % Config.memSize) }

/-! ## Memory (20_memory.md R51, R52) -/

/-- `MemRead(a, 1)`. -/
def State.readByte (s : State) (a : Nat) : Byte := s.mem.read s.params.glyphRom a

/-- `MemWrite(a, 1, v)`. -/
def State.writeByte (s : State) (a : Nat) (v : Byte) : State := { s with mem := s.mem.write s.params.glyphRom a v }

/-- The `n` bytes from `a` on, each address masked. -/
def State.readBytes (s : State) (a n : Nat) : List Byte := s.mem.readBytes s.params.glyphRom a n

/-- Store a sequence at consecutive addresses from `a`, each masked, in increasing order. -/
def State.writeBytes (s : State) (a : Nat) (bs : List Byte) : State :=
  { s with mem := s.mem.writeBytes s.params.glyphRom a bs }

/-! ## The end of an arithmetic instruction -/

/-- `V[X] <- result; pc <- pc + 2`. -/
def State.writeResult (s : State) (x : Nibble) (result : Byte) : State := (s.writeV x result).advance

/-- `V[X] <- result; VF <- flag; pc <- pc + 2`: the flag is written LAST, so with `X = 15` it is what `VF` holds (00_scope.md R9,
decision D5, log 6). -/
def State.writeResultFlag (s : State) (x : Nibble) (result : Byte) (b : Bool) : State :=
  ((s.writeV x result).writeFlag b).advance

/-! ## Fatal conditions and the call stack -/

/-- `raise F`: the instruction makes no write of its own; only `run <- HALT` and `fault <- F` (60_exceptions.md R172, decision D13,
log 14). There is no handler and no vector, and no return from it beside `Reset` (R173). -/
def State.raise (s : State) (f : Fatal) : State := { s with run := .halt, fault := some f }

/-- `push(v)`: fails with `StackOverflow` when the stack holds 16 entries (10_state.md R29). -/
def State.push (s : State) (v : Nat) : Except Fatal State :=
  if h : s.SP.val < Config.stackDepth then
    .ok { s with
      stack := s.stack.set s.SP.val (BitVec.ofNat 16 (v % Config.memSize)) h
      SP := ⟨s.SP.val + 1, Nat.succ_lt_succ h⟩ }
  else .error .stackOverflow

/-- `pop()`: fails with `StackUnderflow` when the stack is empty; the entry is not erased (10_state.md R30). -/
def State.pop (s : State) : Except Fatal (Word × State) :=
  match s.SP with
  | ⟨0, _⟩ => .error .stackUnderflow
  | ⟨k + 1, h⟩ =>
    .ok (s.stack[k]'(Nat.lt_of_succ_lt_succ h), { s with SP := ⟨k, Nat.lt_of_succ_lt h⟩ })

/-! ## The diagnostic port -/

/-- `emit diag(pc, w)` (60_exceptions.md R176): one more event on the port. -/
def State.emitDiag (s : State) (w : Word) : State :=
  { s with diag := s.diag ++ [⟨s.pc.setWidth 12, w⟩] }

end Sys2Proof.Machine
end

