-- ==== Sys2Proof/Machine/Operands.lean ====
section
/-!
DEFINITION. The operand forms: how an instruction finds what it works on. There are few: registers and immediates are taken as
they stand (30_encoding.md R73), data memory is addressed only through `I` (43_index_memory.md R136), a key by the low digit of a
register (45_keys_timers.md R150). What the parameters `SHIFT_SRC` and
`KEY_PICK` (00_scope.md R6) mean is said here; their values are the state's.
-/

namespace Sys2Proof.Machine

/-! ## Memory operands -/

/-- The address of the `k`-th data byte, `I + k`, unreduced: the memory masks it (43_index_memory.md R136, 20_memory.md R51). -/
def State.dataAddr (s : State) (k : Nat) : Nat := s.I.toNat + k

/-- The sprite of `DXYN`: `n` bytes from `I`, each address masked (44_display.md R143). -/
def State.spriteRows (s : State) (n : Nibble) : List Byte := s.readBytes (s.dataAddr 0) n.toNat

/-- `V[0]` to `V[n - 1]`, the registers `FX55` stores (43_index_memory.md R134); 16 at most. -/
def State.regBytes (s : State) (n : Nat) : List Byte := s.V.toList.take n

/-- Write the first registers from a byte sequence, `V[0]` first (43_index_memory.md R135); the 17th byte on has no register. -/
def loadRegBytes (V : Vector Byte 16) (k : Nat) : List Byte → Vector Byte 16
  | [] => V
  | b :: bs => loadRegBytes (V.setIfInBounds k b) (k + 1) bs

/-- The address of the glyph for a digit: `0x000 + v * 5`, the formula applied to the whole byte (43_index_memory.md R132,
decision D8, log 9). -/
def glyphAddr (v : Byte) : Nat := v.toNat * Config.glyphStride

/-- The three decimal digits of a byte, one to a byte, hundreds first (43_index_memory.md R133). -/
def bcdDigits (v : Byte) : List Byte :=
  [BitVec.ofNat 8 (v.toNat / 100), BitVec.ofNat 8 (v.toNat / 10 % 10), BitVec.ofNat 8 (v.toNat % 10)]

/-! ## The source of a shift -/

/-- The register a shift reads, under either value of `SHIFT_SRC` (42_alu.md R119, R121). -/
def shiftOperand (src : Config.ShiftSrc) (x y : Nibble) : Nibble :=
  match src with
  | .vy => y
  | .vx => x

/-! ## Keys -/

/-- `key(k)` with `k` the low 4 bits of a register (45_keys_timers.md R150, decision D7, log 8), of the snapshot the current `Step` sees. -/
def State.keyPressed (s : State) (v : Byte) : Bool := s.keys.getLsbD (v.toNat % 16)

/-- Keys up at the previous `Step` of a wait and down now: `keys & ~keys_prev` (45_keys_timers.md R154). -/
def newlyDown (keys keysPrev : BitVec 16) : BitVec 16 := keys &&& ~~~keysPrev

/-- The lowest number of a pressed key from `k` on, `n` keys looked at. -/
def lowestKeyFrom (down : BitVec 16) (k : Nat) : Nat → Nibble
  | 0 => 0
  | n + 1 => if down.getLsbD k then BitVec.ofNat 4 k else lowestKeyFrom down (k + 1) n

/-- The lowest key number that went down. -/
def lowestKey (down : BitVec 16) : Nibble := lowestKeyFrom down 0 16

/-- A proposed key if it is one that went down, else the lowest: a pick is always a member of `down`. -/
def pickIfDown (down : BitVec 16) (k : Nibble) : Nibble :=
  if down.getLsbD k.toNat then k else lowestKey down

/-- `KEY_PICK(down)` under each value of the parameter (R6, 45_keys_timers.md R154, decision D9, log 10); `n` indexes the free pick. -/
def pickKey (pick : Config.KeyPick) (n : Nat) (down : BitVec 16) : Nibble :=
  match pick with
  | .lowest => lowestKey down
  | .table answers => pickIfDown down ((answers.lookup down).getD (lowestKey down))
  | .any => pickIfDown down (Config.freePick n down)

/-- How many free values a pick draws. -/
def pickDraws (pick : Config.KeyPick) : Nat :=
  match pick with
  | .lowest | .table _ => 0
  | .any => 1

end Sys2Proof.Machine
end

