-- ==== Sys2Proof/Machine/Alu.lean ====
section
/-!
DEFINITION. Register load, arithmetic and logic (42_alu.md). Every one ends with `pc <- pc + 2` and none can raise a fault (R110);
all arithmetic is unsigned and wraps modulo 256 (R123).
-/

namespace Sys2Proof.Machine

/-- `6XKK` LD_K (R111). -/
def execLdK (x : Nibble) (kk : Byte) (s : State) : Host.Outcome State Fault Refusal :=
  .next (s.writeResult x kk)

/-- `7XKK` ADD_K (R112): no flag change. -/
def execAddK (x : Nibble) (kk : Byte) (s : State) : Host.Outcome State Fault Refusal :=
  .next (s.writeResult x (s.readV x + kk))

/-- `8XY0` LD_V (R113). -/
def execLdV (x y : Nibble) (s : State) : Host.Outcome State Fault Refusal :=
  .next (s.writeResult x (s.readV y))

/-- `8XY1` OR (R114): `VF` is left alone. -/
def execOrV (x y : Nibble) (s : State) : Host.Outcome State Fault Refusal :=
  .next (s.writeResult x (s.readV x ||| s.readV y))

/-- `8XY2` AND (R115): `VF` is left alone. -/
def execAndV (x y : Nibble) (s : State) : Host.Outcome State Fault Refusal :=
  .next (s.writeResult x (s.readV x &&& s.readV y))

/-- `8XY3` XOR (R116): `VF` is left alone. -/
def execXorV (x y : Nibble) (s : State) : Host.Outcome State Fault Refusal :=
  .next (s.writeResult x (s.readV x ^^^ s.readV y))

/-- `8XY4` ADD_V (R117): `VF` is the carry. -/
def execAddV (x y : Nibble) (s : State) : Host.Outcome State Fault Refusal :=
  .next (s.writeResultFlag x (s.readV x + s.readV y) (carryFlag (s.readV x) (s.readV y)))

/-- `8XY5` SUB (R118): `VF` is 1 when `V[X] >= V[Y]`. -/
def execSub (x y : Nibble) (s : State) : Host.Outcome State Fault Refusal :=
  .next (s.writeResultFlag x (s.readV x - s.readV y) (noBorrowFlag (s.readV x) (s.readV y)))

/-- `8XY7` SUBN (R120): `VF` is 1 when `V[Y] >= V[X]`. -/
def execSubn (x y : Nibble) (s : State) : Host.Outcome State Fault Refusal :=
  .next (s.writeResultFlag x (s.readV y - s.readV x) (noBorrowFlag (s.readV y) (s.readV x)))

/-- `8XY6` under either value of `SHIFT_SRC` (R119): a zero enters at bit 7, `VF` is the old bit 0 of the source. -/
def shrWith (src : Config.ShiftSrc) (x y : Nibble) (s : State) : State :=
  let v := s.readV (shiftOperand src x y)
  s.writeResultFlag x (v >>> 1) (shiftedOutRight v)

/-- `8XYE` under either value of `SHIFT_SRC` (R121): a zero enters at bit 0, `VF` is the old bit 7 of the source. -/
def shlWith (src : Config.ShiftSrc) (x y : Nibble) (s : State) : State :=
  let v := s.readV (shiftOperand src x y)
  s.writeResultFlag x (v <<< 1) (shiftedOutLeft v)

/-- `8XY6` SHR (R119) with the machine's `SHIFT_SRC`. -/
def execShr (x y : Nibble) (s : State) : Host.Outcome State Fault Refusal :=
  .next (shrWith s.params.shiftSrc x y s)

/-- `8XYE` SHL (R121) with the machine's `SHIFT_SRC`. -/
def execShl (x y : Nibble) (s : State) : Host.Outcome State Fault Refusal :=
  .next (shlWith s.params.shiftSrc x y s)

/-- `CXKK` RND (R122): the random byte of the current `Step`, masked; nothing is assumed of it (log 11). -/
def execRnd (x : Nibble) (kk : Byte) (s : State) : Host.Outcome State Fault Refusal :=
  .next (s.writeResult x (s.rnd &&& kk))

end Sys2Proof.Machine
end

