-- ==== Sys2Proof/Machine/Display.lean ====
section
/-!
DEFINITION. The display buffer and its two instructions (44_display.md).
-/

namespace Sys2Proof.Machine

/-- The 64 by 32 grid (10_state.md R34). -/
abbrev Pixels := Vector (BitVec 64) 32

/-- `px[y][x]`, with the coordinates wrapped modulo 64 and 32 (R142). -/
def pixelAt (px : Pixels) (x y : Nat) : Bool :=
  (px[y % Config.displayH]'(Nat.mod_lt y (by decide))).getLsbD (x % Config.displayW)

/-- `px[y][x] <- px[y][x] ^ 1`, with the coordinates wrapped. -/
def flipPixel (px : Pixels) (x y : Nat) : Pixels :=
  px.set (y % Config.displayH)
    ((px[y % Config.displayH]'(Nat.mod_lt y (by decide))) ^^^ BitVec.twoPow 64 (x % Config.displayW))
    (Nat.mod_lt y (by decide))

/-- A drawing under way: the buffer, whether a pixel went from set to unset, whether a pixel changed (R142). -/
structure Canvas where
  /-- The buffer. -/
  px : Pixels
  /-- Some pixel went from set to unset. -/
  collision : Bool
  /-- Some pixel changed. -/
  changed : Bool
deriving DecidableEq, Repr

/-- The inner step of `drawSprite` for column `c` of one row (R142): a 0 bit leaves its pixel alone, a 1 bit always changes it;
`c = 0` is the most significant bit. -/
def drawBit (x0 y : Nat) (row : Byte) (k : Canvas) (c : Nat) : Canvas :=
  if row.getLsbD (7 - c) then
    { px := flipPixel k.px (x0 + c) y
      collision := k.collision || pixelAt k.px (x0 + c) y
      changed := true }
  else k

/-- One row of a sprite: the eight columns (R142). -/
def drawRow (x0 y : Nat) (row : Byte) (k : Canvas) : Canvas :=
  (List.range 8).foldl (drawBit x0 y row) k

/-- The rows of a sprite, one below the other from `y` (R142). -/
def drawRows (x0 y : Nat) : List Byte → Canvas → Canvas
  | [], k => k
  | row :: rows, k => drawRows x0 (y + 1) rows (drawRow x0 y row k)

/-- `drawSprite(x0, y0, rows)`: exclusive or at wrapped coordinates, with collision and change reported (R142). -/
def drawSprite (x0 y0 : Nat) (rows : List Byte) (px : Pixels) : Canvas :=
  drawRows x0 y0 rows { px := px, collision := false, changed := false }

/-- `00E0` CLS (R141): every pixel unset; the render-needed signal is raised always. -/
def execCls (s : State) : Host.Outcome State Fault Refusal :=
  .next { s with px := Vector.replicate 32 0, renderNeeded := true }.advance

/-- `DXYN` DRW (R143, R144): coordinates and sprite are read first, the signal is raised when a pixel changed, `VF` is the
collision, written last; `I` is not changed. With `N = 0` there are no rows. -/
def execDrw (x y n : Nibble) (s : State) : Host.Outcome State Fault Refusal :=
  let k := drawSprite (s.readV x).toNat (s.readV y).toNat (s.spriteRows n) s.px
  .next ({ s with px := k.px, renderNeeded := s.renderNeeded || k.changed }.writeFlag k.collision).advance

end Sys2Proof.Machine
end

