-- ==== Sys2Proof/Machine/Flow.lean ====
section
/-!
DEFINITION. Control transfer (41_flow.md): no delay slots, no annulment, any 12-bit target is legal (R100).
-/

namespace Sys2Proof.Machine

/-- `00EE` RET (R101): the popped value, not advanced further; on an empty stack `StackUnderflow`. -/
def execRet (s : State) : Host.Outcome State Fault Refusal :=
  match s.pop with
  | .ok (target, t) => .next (t.setPc target.toNat)
  | .error f => .next (s.raise f)

/-- `1NNN` JP (R102). -/
def execJp (nnn : BitVec 12) (s : State) : Host.Outcome State Fault Refusal :=
  .next (s.setPc nnn.toNat)

/-- `2NNN` CALL (R103): push `pc + 2`, then jump; on a full stack `StackOverflow`. -/
def execCall (nnn : BitVec 12) (s : State) : Host.Outcome State Fault Refusal :=
  match s.push (s.pc.toNat + 2) with
  | .ok t => .next (t.setPc nnn.toNat)
  | .error f => .next (s.raise f)

/-- `BNNN` JP_V0 (R104): the register is always `V[0]`; the sum wraps modulo 4096. -/
def execJpV0 (nnn : BitVec 12) (s : State) : Host.Outcome State Fault Refusal :=
  .next (s.setPc ((s.readV 0).toNat + nnn.toNat))

/-- `3XKK` SE_K (R105). -/
def execSeK (x : Nibble) (kk : Byte) (s : State) : Host.Outcome State Fault Refusal :=
  .next (s.skipIf (s.readV x == kk))

/-- `4XKK` SNE_K (R106). -/
def execSneK (x : Nibble) (kk : Byte) (s : State) : Host.Outcome State Fault Refusal :=
  .next (s.skipIf (s.readV x != kk))

/-- `5XY0` SE_V (R107). -/
def execSeV (x y : Nibble) (s : State) : Host.Outcome State Fault Refusal :=
  .next (s.skipIf (s.readV x == s.readV y))

/-- `9XY0` SNE_V (R108). -/
def execSneV (x y : Nibble) (s : State) : Host.Outcome State Fault Refusal :=
  .next (s.skipIf (s.readV x != s.readV y))

end Sys2Proof.Machine
end

