-- ==== Sys2Proof/Machine/IndexMemory.lean ====
section
/-!
DEFINITION. Index register and memory instructions (43_index_memory.md). Every one ends with `pc <- pc + 2`; none writes `VF` as a
flag; `I` is never pre- or post-modified (R136).
-/

namespace Sys2Proof.Machine

/-- `ANNN` LD_I (R130). -/
def execLdI (nnn : BitVec 12) (s : State) : Host.Outcome State Fault Refusal :=
  .next (s.setI nnn.toNat).advance

/-- `FX1E` ADD_I (R131): wraps modulo 4096 silently, `VF` is left alone. -/
def execAddI (x : Nibble) (s : State) : Host.Outcome State Fault Refusal :=
  .next (s.setI (s.I.toNat + (s.readV x).toNat)).advance

/-- `FX29` LD_F (R132): the formula on the whole byte. -/
def execLdF (x : Nibble) (s : State) : Host.Outcome State Fault Refusal :=
  .next (s.setI (glyphAddr (s.readV x))).advance

/-- `FX33` LD_B (R133): hundreds, tens, units at `I`, `I + 1`, `I + 2`, each address masked, a store into the glyph table discarded. -/
def execLdB (x : Nibble) (s : State) : Host.Outcome State Fault Refusal :=
  .next (s.writeBytes (s.dataAddr 0) (bcdDigits (s.readV x))).advance

/-- `FX55` ST_REGS (R134): `V[0]` to `V[X]` at `I` to `I + X`. -/
def execStRegs (x : Nibble) (s : State) : Host.Outcome State Fault Refusal :=
  .next (s.writeBytes (s.dataAddr 0) (s.regBytes (x.toNat + 1))).advance

/-- `FX65` LD_REGS (R135): `V[0]` to `V[X]` from `I` to `I + X`. -/
def execLdRegs (x : Nibble) (s : State) : Host.Outcome State Fault Refusal :=
  .next { s with V := loadRegBytes s.V 0 (s.readBytes (s.dataAddr 0) (x.toNat + 1)) }.advance

end Sys2Proof.Machine
end

