-- ==== Sys2Proof/Machine/KeysTimers.lean ====
section
/-!
DEFINITION. Key and timer instructions, and the poll of the key wait (45_keys_timers.md). No rule here decrements a timer (R157).
-/

namespace Sys2Proof.Machine

/-- `EX9E` SKP (R150). -/
def execSkp (x : Nibble) (s : State) : Host.Outcome State Fault Refusal :=
  .next (s.skipIf (s.keyPressed (s.readV x)))

/-- `EXA1` SKNP (R151). -/
def execSknp (x : Nibble) (s : State) : Host.Outcome State Fault Refusal :=
  .next (s.skipIf (!s.keyPressed (s.readV x)))

/-- `FX07` LD_V_DT (R152). -/
def execLdVDt (x : Nibble) (s : State) : Host.Outcome State Fault Refusal :=
  .next (s.writeResult x s.DT)

/-- `FX15` LD_DT_V (R155). -/
def execLdDtV (x : Nibble) (s : State) : Host.Outcome State Fault Refusal :=
  .next { s with DT := s.readV x }.advance

/-- `FX18` LD_ST_V (R156). -/
def execLdStV (x : Nibble) (s : State) : Host.Outcome State Fault Refusal :=
  .next { s with ST := s.readV x }.advance

/-- `FX0A` LD_V_KEY (R153): it arms the wait; `pc` and `V[X]` do not change. The snapshot of this `Step` is the baseline. -/
def execLdVKey (x : Nibble) (s : State) : Host.Outcome State Fault Refusal :=
  .next { s with waitX := x, keysPrev := s.keys, run := .wait }

/-- A `Step` in `WAIT` (R154): with no key newly down remember the snapshot, else deliver the key the
machine's `KEY_PICK` takes, advance and run on. -/
def State.pollWait (s : State) : State :=
  let down := newlyDown s.keys s.keysPrev
  if down = 0 then { s with keysPrev := s.keys }
  else
    { s.writeV s.waitX ((pickKey s.params.keyPick s.draws down).setWidth 8) with
      run := .run
      draws := s.draws + pickDraws s.params.keyPick }.advance

end Sys2Proof.Machine
end

