-- ==== Sys2Proof/Machine/Cycle.lean ====
section
/-!
DEFINITION. The host events and the fetch-decode-execute cycle (40_cycle.md, 60_exceptions.md sections 5 and 6,
70_reset_and_hazards.md). Each event is one atomic function of the state (60_exceptions.md R186).
-/

namespace Sys2Proof.Machine

/-! ## The event `Step` -/

/-- Fetch: `w = MemRead(pc, 2)`; `pc` is not changed and nothing can fault (40_cycle.md R91). -/
def State.fetchWord (s : State) : Word := s.mem.readWord s.params.glyphRom s.pc.toNat

/-- An unknown word is reported and skipped (40_cycle.md R96). -/
def State.unknownWord (s : State) (w : Word) : State := (s.emitDiag w).advance

/-- Fetch, decode and execute one instruction (40_cycle.md R91 to R93). -/
def runInstr (s : State) : Host.Outcome State Fault Refusal :=
  match decodeWord s.fetchWord with
  | some i => exec i s
  | none => .next (s.unknownWord s.fetchWord)

/-- What a `Step` does by `run`: one instruction, one poll of the keys, or nothing (40_cycle.md R90, R95). -/
def runCycle (s : State) : Host.Outcome State Fault Refusal :=
  match s.run with
  | .run => runInstr s
  | .wait => .next s.pollWait
  | .halt => .next s

/-- The inputs of a `Step` as the core sees them for the whole of it (40_cycle.md R97); from now on a `Load` has no meaning
(70_reset_and_hazards.md R202). -/
def State.present (s : State) (keys : BitVec 16) (rnd : Byte) : State :=
  { s with keys := keys, rnd := rnd, loadOpen := false }

/-! ## The Timer Unit -/

/-- One tick of one timer: down by 1 while greater than zero, never below (60_exceptions.md R181). -/
def timerTick (t : Byte) : Byte := if t = 0 then 0 else t - 1

/-- The event `Tick`: both timers together, nothing else (60_exceptions.md R181). -/
def State.tick (s : State) : State := { s with DT := timerTick s.DT, ST := timerTick s.ST }

/-- `n` ticks of one timer at once. -/
def timerTicks (n : Nat) (t : Byte) : Byte := if t = 0 then 0 else BitVec.ofNat 8 (t.toNat - n)

/-! ## `RenderAck`, `Load`, `Reset` -/

/-- The event `RenderAck`: `render_needed <- 0`, nothing else (60_exceptions.md R190). -/
def State.renderAck (s : State) : State := { s with renderNeeded := false }

/-- The event `Load(bytes)`: verbatim from 0x200 upward, or, with more than 3584 bytes, nothing written, `HALT` and
`CapacityExceeded` (20_memory.md R57, 60_exceptions.md R175); at most one, after `Reset` and before the first `Step`
(70_reset_and_hazards.md R202). -/
def State.load (s : State) (bytes : List Byte) : Host.Outcome State Fault Refusal :=
  if s.loadOpen then
    if bytes.length ≤ Config.programCapacity then
      .next { s.writeBytes Config.loadBase bytes with loadOpen := false }
    else .next { s.raise .capacityExceeded with loadOpen := false }
  else .refused .loadNotOpen

/-- The event `Reset`: every state element of the core at its reset value, for the machine's own parameters (70_reset_and_hazards.md
R200); the host's side of the ports is no element of the core and stays (log 26). -/
def State.resetEvent (s : State) : State :=
  { State.resetWith s.params with
    keys := s.keys, rnd := s.rnd, pending := s.pending, draws := s.draws, diag := s.diag }

/-! ## Who moves next -/

/-- One host event (60_exceptions.md R185). -/
def deliver (e : HostEvent) (s : State) : Host.Outcome State Fault Refusal :=
  match e with
  | .reset => .next s.resetEvent
  | .load bytes => s.load bytes
  | .step keys rnd => runCycle (s.present keys rnd)
  | .tick => .next s.tick
  | .renderAck => .next s.renderAck

/-- An unscripted host turn, up to and with the inputs of its `Step`: some number of ticks, perhaps a `RenderAck`, then any keys and
any random byte (log 2). Every interleaving of `Step`, `Tick` and `RenderAck` is of this form (60_exceptions.md R182). -/
def State.hostTurn (s : State) : State :=
  { s.present (Config.freeKeys s.draws) (Config.freeRnd s.draws) with
    DT := timerTicks (Config.freeTicks s.draws) s.DT
    ST := timerTicks (Config.freeTicks s.draws) s.ST
    renderNeeded := s.renderNeeded && !Config.freeAck s.draws
    draws := s.draws + 1 }

end Sys2Proof.Machine
end

