-- ==== Sys2Proof/Machine/Step.lean ====
section
/-!
DEFINITION. One step of the machine: the next host event, or, when none is pending, an unscripted host turn and the `Step` it ends
in (log 1, log 2).
-/

namespace Sys2Proof.Machine

/-- One atomic event (60_exceptions.md R186). -/
def step (s : State) : Host.Outcome State Fault Refusal :=
  match s.pending with
  | e :: rest => deliver e { s with pending := rest }
  | [] => runCycle s.hostTurn

/-- `s` with the instruction word `w` at `pc` (the bits above `nbits` zero), running, and a `Step` with the ports as they stand as
the next event: all that it takes for the very next `step` to fetch and run it (log 27). -/
def State.withFetchWord (s : State) (nbits w : Nat) : State :=
  let word := BitVec.ofNat 16 (w % 2 ^ nbits)
  { s with
    mem := (s.mem.poke s.params.glyphRom s.pc.toNat (highByte word)).poke s.params.glyphRom (s.pc.toNat + 1) (lowByte word)
    run := .run
    fault := none
    pending := .step s.keys s.rnd :: s.pending }

end Sys2Proof.Machine
end

