-- ==== Sys2Proof/Machine/Ports.lean ====
section
/-!
DEFINITION. The outputs of the CORE, as functions of the state (60_exceptions.md R183, R184, R189, R191). Reading one has no effect
on the core; `render_needed` is the state element itself, `diag` the list of events.
-/

namespace Sys2Proof.Machine

/-- Bit `k = y * 64 + x` of `frame` is `px[y][x]` (60_exceptions.md R189). -/
def State.frameBit (s : State) (k : Nat) : Bool :=
  pixelAt s.px (k % Config.displayW) (k / Config.displayW)

/-- `frame`: 2048 bits, row-major (60_exceptions.md R189, 10_state.md R34). -/
def State.frame (s : State) : List Bool := (List.range 2048).map s.frameBit

/-- `tone_active`: the level "1 if `ST != 0` else 0" (60_exceptions.md R183, decision D17, log 18). -/
def State.toneActive (s : State) : Bool := s.ST != 0

/-- An audio edge (60_exceptions.md R184). -/
inductive ToneEdge where
  /-- "tone should be audible". -/
  | rising
  /-- "tone should stop". -/
  | falling
deriving DecidableEq, Repr

/-- The edge of `tone_active` between the states before and after an event (60_exceptions.md R184). -/
def toneEdge (before after : State) : Option ToneEdge :=
  match before.toneActive, after.toneActive with
  | false, true => some .rising
  | true, false => some .falling
  | _, _ => none

/-- The output `run`: `RUN` = 0, `WAIT` = 1, `HALT` = 2 (60_exceptions.md R191). -/
def RunState.code : RunState → BitVec 2
  | .run => 0
  | .wait => 1
  | .halt => 2

/-- The output `fault` (60_exceptions.md R170, R191); code 4, `UnknownInstruction`, is an event and no value of it. -/
def faultCode : Option Fatal → BitVec 2
  | none => 0
  | some .stackOverflow => 1
  | some .stackUnderflow => 2
  | some .capacityExceeded => 3

/-- The code of the event `UnknownInstruction` (60_exceptions.md R170). -/
def unknownInstructionCode : Nat := 4

end Sys2Proof.Machine
end

