-- ==== Sys2Proof/WellFormed.lean ====
section
/-!
DEFINITION. Which terms stand for something the hardware has.

Instructions need no check: every operand field is a bit vector of the field's own width (30_encoding.md R71), "no register is
excluded" (R73) and the degenerate operand values are legal encodings (R78), so every term of `Instr` is an instruction of the
hardware. `Instr.wellFormed` says so constructor by constructor.

A program does need one: it fits the memory above 0x200 or its load fails (20_memory.md R57).
-/

namespace Sys2Proof

/-- Every term of `Instr` is well formed: its fields' widths are its only bounds (30_encoding.md R73, R78). -/
def Instr.wellFormed : Instr → Bool
  | .cls | .ret => true
  | .jp _ | .call _ | .ldI _ | .jpV0 _ => true
  | .seK _ _ | .sneK _ _ | .ldK _ _ | .addK _ _ | .rnd _ _ => true
  | .seV _ _ | .sneV _ _ => true
  | .ldV _ _ | .orV _ _ | .andV _ _ | .xorV _ _ => true
  | .addV _ _ | .sub _ _ | .shr _ _ | .subn _ _ | .shl _ _ => true
  | .drw _ _ _ => true
  | .skp _ | .sknp _ | .ldVDt _ | .ldVKey _ | .ldDtV _ | .ldStV _ => true
  | .addI _ | .ldF _ | .ldB _ | .stRegs _ | .ldRegs _ => true

/-- A program is well formed when it may be loaded: at most 3584 bytes (20_memory.md R57, 70_reset_and_hazards.md R204). -/
def programWellFormed (bytes : List Byte) : Bool :=
  bytes.length ≤ Config.programCapacity

end Sys2Proof
end

