-- ==== Sys2Proof/Safety.lean ====
section
/-!
DEFINITION. The words claims are made in: the state a program starts from, what has gone wrong and what has finished, the
invariant of the machine, the fairness of ticks, and frames, which say of every element of the state whether an event left it alone.
-/

namespace Sys2Proof.Machine

/-! ## Runs -/

/-- The launch state of a program on a machine with the parameters `p`: the state after `Reset; Load(P)` (70_reset_and_hazards.md R204). -/
def launchState (p : Params) (program : List Byte) : State :=
  { (State.resetWith p).writeBytes Config.loadBase program with loadOpen := false }

/-- "A model must treat a state with `run = HALT` as gone wrong" (60_exceptions.md R173). -/
def State.goneWrong (s : State) : Prop := s.run = .halt

/-- "The program has finished": running, at a jump to itself (70_reset_and_hazards.md R205, decision D25, log 25). -/
def State.finished (s : State) : Prop :=
  s.run = .run ∧ ∃ nnn : BitVec 12, decodeWord s.fetchWord = some (.jp nnn) ∧ nnn.toNat = s.pc.toNat

/-- Weak fairness of `Tick` in a schedule: "ticks keep coming" (60_exceptions.md R182). Nothing in the model assumes it. -/
def fairTicks (schedule : Nat → HostEvent) : Prop := ∀ n, ∃ m, n ≤ m ∧ schedule m = .tick

/-! ## The invariant (10_state.md R42) -/

/-- What holds of every reachable state: R42 (a), (c), (d), (e), R27's bound on the stack entries, and two facts of the model's own
fields. R42 (b) is the type of `SP`. -/
structure State.Inv (s : State) : Prop where
  /-- R42 (a). -/
  pc_lt : s.pc.toNat < Config.memSize
  /-- R42 (c). -/
  i_lt : s.I.toNat < Config.memSize
  /-- R27: the value of an entry is always below 4096. -/
  stack_lt : ∀ k : Fin 16, s.stack[k].toNat < Config.memSize
  /-- R42 (d). -/
  glyph : s.mem.glyphIntact
  /-- R42 (e). -/
  fault_iff : s.fault ≠ none ↔ s.run = .halt
  /-- The canonical form of memory (log 23). -/
  mem_wf : s.mem.wf s.params.glyphRom
  /-- A `Load` has a meaning only before the first `Step`, so only while running (70_reset_and_hazards.md R202, log 16). -/
  load_open : s.loadOpen = true → s.run = .run

/-! ## Frames -/

/-- The elements of the state, each register, stack entry, byte and pixel by itself. `params` and `ports` are the model's own
fields. -/
inductive Element where
  | V (r : Nibble)
  | I
  | pc
  | stack (k : Fin 16)
  | SP
  | DT
  | ST
  | byte (a : Nat)
  | pixel (x y : Nat)
  | renderNeeded
  | run
  | fault
  | waitX
  | keysPrev
  | params
  | ports
deriving DecidableEq, Repr

/-- The element reads the same in both states. -/
def Element.unchanged (s t : State) : Element → Prop
  | .V r => t.readV r = s.readV r
  | .I => t.I = s.I
  | .pc => t.pc = s.pc
  | .stack k => t.stack[k] = s.stack[k]
  | .SP => t.SP = s.SP
  | .DT => t.DT = s.DT
  | .ST => t.ST = s.ST
  | .byte a => t.readByte a = s.readByte a
  | .pixel x y => pixelAt t.px x y = pixelAt s.px x y
  | .renderNeeded => t.renderNeeded = s.renderNeeded
  | .run => t.run = s.run
  | .fault => t.fault = s.fault
  | .waitX => t.waitX = s.waitX
  | .keysPrev => t.keysPrev = s.keysPrev
  | .params => t.params = s.params
  | .ports =>
    t.keys = s.keys ∧ t.rnd = s.rnd ∧ t.pending = s.pending ∧ t.draws = s.draws ∧ t.diag = s.diag ∧ t.loadOpen = s.loadOpen

/-- Nothing changed from `s` to `t` but what `W` allows. -/
def changesOnly (W : Element → Prop) (s t : State) : Prop := ∀ e, ¬ W e → e.unchanged s t

/-- `pc + n` as every write of `pc` stores it: modulo 4096 (10_state.md R24). -/
def State.pcPlus (s : State) (n : Nat) : Nat := (s.pc.toNat + n) % 4096

/-- Row `r`, column `c` of a sprite is a set bit and lands on pixel `(x, y)` of a sprite drawn at `(x0, y0)` (44_display.md R142). -/
def spriteHits (x0 y0 : Nat) (rows : List Byte) (x y r c : Nat) : Prop :=
  c < 8 ∧ (∃ row, rows[r]? = some row ∧ row.getLsbD (7 - c) = true) ∧
    (x0 + c) % 64 = x % 64 ∧ (y0 + r) % 32 = y % 32

/-- Some set bit of the sprite lands on pixel `(x, y)`. -/
def spriteCovers (x0 y0 : Nat) (rows : List Byte) (x y : Nat) : Prop :=
  ∃ r c, spriteHits x0 y0 rows x y r c

end Sys2Proof.Machine
end

