-- ==== Sys2Proof/Certificates/Slice0/Obligations.lean ====
section
/-!
DEFINITION. The statements for the provers. Where a clause rests on a decision the spec marks as its own (`D<n>` of
92_eei_decisions.md) or on a choice of the model, the docstring names it and its log entry; such a statement is 'derived' in
OBLIGATIONS.json. Every `pc + n` is `pcPlus`, modulo 4096: decision D3, log 4. An instruction's frame is `changesOnly`, which speaks
of every register, stack entry, byte of memory and pixel by itself. Every statement about every state is one about every value of the
parameters `SHIFT_SRC`, `GLYPH_ROM` and `KEY_PICK`, which the state carries (R6, log 32).
-/

open Sys2Proof Sys2Proof.Machine

/-! ## Encoding (30_encoding.md) -/

/-- Decoding the two bytes of any well-formed instruction, whatever follows them, gives the instruction and leaves what follows. -/
def Obligations.EncodedInstructionDecodesBack : Prop :=
  ∀ (i : Instr) (rest : List Byte), i.wellFormed = true → decode (encode i ++ rest) = .ok (i, rest)

/-- Each word has one meaning: the word an instruction was decoded from is the word the encoder gives it. -/
def Obligations.DecodedWordEncodesBack : Prop :=
  ∀ (w : Word) (i : Instr), decodeWord w = some i → encodeWord i = w

/-- The decoder, written by nibbles, agrees with the opcode map, written by match and mask: a word selects the row of a form exactly
when it decodes to an instruction of that row (R74; that fixed digits must match is decision D6, log 7). -/
def Obligations.FormIsSelectedByMatchAndMask : Prop :=
  ∀ (w : Word) (j : Instr), j.row.selects w = true ↔ ∃ i, decodeWord w = some i ∧ i.row = j.row

/-- The unknown words are those R76 lists by high nibble, and no others (strictness: decision D6, log 7). -/
def Obligations.UnknownWordsAreTheListedOnes : Prop :=
  ∀ w : Word, decodeWord w = none ↔
    (w.toNat / 4096 = 0x0 ∧ w.toNat ≠ 0x00E0 ∧ w.toNat ≠ 0x00EE) ∨
    (w.toNat / 4096 = 0x5 ∧ w.toNat % 16 ≠ 0) ∨
    (w.toNat / 4096 = 0x8 ∧ w.toNat % 16 ∈ [0x8, 0x9, 0xA, 0xB, 0xC, 0xD, 0xF]) ∨
    (w.toNat / 4096 = 0x9 ∧ w.toNat % 16 ≠ 0) ∨
    (w.toNat / 4096 = 0xE ∧ w.toNat % 256 ∉ [0x9E, 0xA1]) ∨
    (w.toNat / 4096 = 0xF ∧ w.toNat % 256 ∉ [0x07, 0x0A, 0x15, 0x18, 0x1E, 0x29, 0x33, 0x55, 0x65])

/-- One word of each family, written out from R75, decodes to the instruction it stands for; two near misses, 0xF250 and 0x5AB1, do
not decode (that every fixed digit must match is decision D6, log 7). -/
def Obligations.SampleWordsDecodeAsWritten : Prop :=
  decodeWord 0x83A4#16 = some (.addV 3 10) ∧ decodeWord 0x2ABC#16 = some (.call 0xABC) ∧
    decodeWord 0x3A42#16 = some (.seK 10 0x42) ∧ decodeWord 0xD125#16 = some (.drw 1 2 5) ∧
    decodeWord 0xF250#16 = none ∧ decodeWord 0xF255#16 = some (.stRegs 2) ∧
    decodeWord 0xE39E#16 = some (.skp 3) ∧ decodeWord 0x5AB1#16 = none

/-! ## The cycle and the host events -/

/-- The fetched word: high byte at `pc`, low byte at the next address, both masked (R58). -/
def Obligations.FetchIsTwoBytesHighFirst : Prop :=
  ∀ s : State, s.fetchWord.toNat = (s.readByte s.pc.toNat).toNat * 256 + (s.readByte ((s.pc.toNat + 1) % 4096)).toNat

/-- A step runs the decoded instruction. With a `Step(keys, rnd)` next in the schedule, `step` is `exec` of the instruction at `pc`
on the state in which that event is taken from the schedule, its inputs are on the ports and loading is over; with no event scheduled
it is `exec` on the state after an unscripted host turn (log 1, log 2: the model's choices). -/
def Obligations.StepRunsTheDecodedInstruction : Prop :=
  ∀ (s : State) (i : Instr), s.run = .run →
    decode [s.readByte s.pc.toNat, s.readByte (s.pc.toNat + 1)] = .ok (i, []) →
    (∀ keys rnd rest, s.pending = .step keys rnd :: rest →
      step s = exec i { s with pending := rest, keys := keys, rnd := rnd, loadOpen := false }) ∧
    (s.pending = [] → step s = exec i s.hostTurn)

/-- An unknown word is reported with its address and skipped; the core changes in nothing but `pc`, and runs on (R96; the content of
the event is decision D14, log 15). -/
def Obligations.UnknownWordIsReportedAndSkipped : Prop :=
  ∀ (s : State) (w : Word) (keys : BitVec 16) (rnd : Byte) (rest : List HostEvent),
    s.run = .run → s.pending = .step keys rnd :: rest →
    decode [s.readByte s.pc.toNat, s.readByte (s.pc.toNat + 1)] = .error (.unknownWord w) →
    ∃ t, step s = .next t ∧ t.pc.toNat = s.pcPlus 2 ∧
      t.diag = s.diag ++ [⟨BitVec.ofNat 12 s.pc.toNat, w⟩] ∧
      t = { s with pc := t.pc, diag := t.diag, pending := rest, keys := keys, rnd := rnd, loadOpen := false }

/-- A `Step` in `HALT` changes nothing of the core, and emits nothing (R95, decision D13, log 14). -/
def Obligations.HaltedCoreIgnoresSteps : Prop :=
  ∀ (s : State) (keys : BitVec 16) (rnd : Byte) (rest : List HostEvent),
    s.run = .halt → s.pending = .step keys rnd :: rest →
    step s = .next { s with pending := rest, keys := keys, rnd := rnd, loadOpen := false }

/-- A `Step` in `WAIT` in whose snapshot no key is down that was up in the previous one only remembers the snapshot (R154,
decision D9, log 10). -/
def Obligations.WaitGoesOnWithoutANewKey : Prop :=
  ∀ (s : State) (keys : BitVec 16) (rnd : Byte) (rest : List HostEvent),
    s.run = .wait → s.pending = .step keys rnd :: rest →
    (∀ k < 16, keys.getLsbD k = true → s.keysPrev.getLsbD k = true) →
    step s = .next { s with keysPrev := keys, pending := rest, keys := keys, rnd := rnd, loadOpen := false }

/-- A `Step` in `WAIT` in which a key went down ends the wait in that step: `V[wait_x]` gets the key the machine's `KEY_PICK` takes among
those that went down, whatever the pick is; the default takes the lowest, and a table its answer, where that key went down. `pc` advances
past the `FX0A`, and nothing else of the core changes (R6, R154, decision D9, log 10; the form of `KEY_PICK` is the model's, log 32). -/
def Obligations.WaitEndsWithThePickedKey : Prop :=
  ∀ (s : State) (keys : BitVec 16) (rnd : Byte) (rest : List HostEvent) (k : Nat),
    s.run = .wait → s.pending = .step keys rnd :: rest →
    k < 16 → keys.getLsbD k = true → s.keysPrev.getLsbD k = false →
    ∃ t, step s = .next t ∧
      (∃ j : Nibble, (t.readV s.waitX).toNat = j.toNat ∧ keys.getLsbD j.toNat = true ∧ s.keysPrev.getLsbD j.toNat = false ∧
        (s.params.keyPick = .lowest → ∀ i < j.toNat, keys.getLsbD i = true → s.keysPrev.getLsbD i = true) ∧
        (∀ answers c, s.params.keyPick = .table answers → answers.lookup (keys &&& ~~~s.keysPrev) = some c →
          keys.getLsbD c.toNat = true → s.keysPrev.getLsbD c.toNat = false → j = c)) ∧
      (∀ r, r ≠ s.waitX → t.readV r = s.readV r) ∧ t.pc.toNat = s.pcPlus 2 ∧
      (s.params.keyPick ≠ .any → t.draws = s.draws) ∧
      t = { s with V := t.V, pc := t.pc, run := .run, draws := t.draws, pending := rest, keys := keys, rnd := rnd, loadOpen := false }

/-- A `Tick` takes one from each timer that is greater than zero, leaves a timer at zero there, and changes nothing else (R181). -/
def Obligations.TickCountsBothTimersDown : Prop :=
  ∀ (s : State) (rest : List HostEvent), s.pending = .tick :: rest →
    ∃ t, step s = .next t ∧
      t.DT.toNat = (if 0 < s.DT.toNat then s.DT.toNat - 1 else 0) ∧
      t.ST.toNat = (if 0 < s.ST.toNat then s.ST.toNat - 1 else 0) ∧
      t = { s with DT := t.DT, ST := t.ST, pending := rest }

/-- `RenderAck` clears `render_needed` and changes nothing else, in every `run` state (R190, decision D18, log 19). -/
def Obligations.RenderAckClearsTheSignal : Prop :=
  ∀ (s : State) (rest : List HostEvent), s.pending = .renderAck :: rest →
    step s = .next { s with renderNeeded := false, pending := rest }

/-- A `Load` of at most 3584 bytes between `Reset` and the first `Step` copies them from 0x200 upward and changes nothing else
(R57, R202, decision D15, log 16). -/
def Obligations.LoadCopiesTheProgram : Prop :=
  ∀ (s : State) (bytes : List Byte) (rest : List HostEvent),
    s.pending = .load bytes :: rest → s.loadOpen = true → bytes.length ≤ 3584 →
    ∃ t, step s = .next t ∧ (∀ k (h : k < bytes.length), t.readByte (0x200 + k) = bytes[k]) ∧
      (∀ a, (∀ k < bytes.length, a % 4096 ≠ 0x200 + k) → t.readByte a = s.readByte a) ∧
      t = { s with mem := t.mem, pending := rest, loadOpen := false }

/-- A `Load` of more than 3584 bytes in the same place writes nothing and halts the core with `CapacityExceeded` (R57, R175, decision D15, log 16). -/
def Obligations.LoadOverCapacityHalts : Prop :=
  ∀ (s : State) (bytes : List Byte) (rest : List HostEvent),
    s.pending = .load bytes :: rest → s.loadOpen = true → 3584 < bytes.length →
    step s = .next { s with run := .halt, fault := some .capacityExceeded, pending := rest, loadOpen := false }

/-- `Reset`, from any state, puts every element of the core at the value R41 lists, the glyph table at the machine's `GLYPH_ROM`; the
schedule goes on (R200; all values but those of `pc`, the glyph table, `SP` and `px` are decision D2, D9 or D13, log 3, 10 and 14; the ports
and the parameters are no element of the core, log 26 and 32). -/
def Obligations.ResetEventRestoresEveryElement : Prop :=
  ∀ (s : State) (rest : List HostEvent), s.pending = .reset :: rest →
    ∃ t, step s = .next t ∧ t.pc = 0x200 ∧ (∀ r, t.readV r = 0) ∧ t.I = 0 ∧ t.SP = 0 ∧ (∀ k : Fin 16, t.stack[k] = 0) ∧
      t.DT = 0 ∧ t.ST = 0 ∧ (∀ x y, pixelAt t.px x y = false) ∧ t.renderNeeded = false ∧ t.run = .run ∧ t.fault = none ∧
      t.waitX = 0 ∧ t.keysPrev = 0 ∧ (∀ a (h : a < 80), t.readByte a = s.params.glyphRom[a]) ∧
      (∀ a, 0x50 ≤ a → a < 4096 → t.readByte a = 0) ∧ t.params = s.params ∧
      t.loadOpen = true ∧ t.pending = rest ∧ t.diag = s.diag ∧ t.keys = s.keys ∧ t.rnd = s.rnd ∧ t.draws = s.draws

/-- What the document itself states or implies of the state after reset (R201), for a machine built with any parameters: `pc`, the glyph
table `GLYPH_ROM`, the empty stack, the blank display. `State.reset` is that state with every parameter at its default (R6; the default
values are decisions D9, D12 and D20, log 10, 13 and 21; that the state carries them is the model's, log 32). -/
def Obligations.ResetStateIsTheDocuments : Prop :=
  (∀ p : Params, (State.resetWith p).params = p ∧ (State.resetWith p).pc = 0x200 ∧
    (∀ a (h : a < 80), (State.resetWith p).readByte a = p.glyphRom[a]) ∧ (State.resetWith p).SP = 0 ∧
    (∀ x y, pixelAt (State.resetWith p).px x y = false)) ∧
  State.reset = State.resetWith { shiftSrc := .vy, glyphRom := glyphRom, keyPick := .lowest }

/-- With no event scheduled the host's turn is some number of `Tick` events, perhaps a `RenderAck`, and then the cycle of a `Step` with
some inputs (the model's choice, log 2, within what R182 and R212 allow). -/
def Obligations.UnscriptedTurnIsTicksAckAndStep : Prop :=
  ∀ s : State, s.pending = [] → ∃ (n : Nat) (ack : Bool) (keys : BitVec 16) (rnd : Byte) (u : State),
    u = (if ack then (State.tick^[n] s).renderAck else State.tick^[n] s) ∧
    step s = runCycle { u.present keys rnd with draws := s.draws + 1 }

/-! ## Control transfer (41_flow.md) -/

/-- `JP`, the word with the nibble 1 and then `NNN`: `pc <- NNN`, and nothing else changes (R102). -/
def Obligations.JumpGoesToItsTarget : Prop :=
  ∀ (s : State) (nnn : BitVec 12), decodeWord (0x1#4 ++ nnn) = some (.jp nnn) ∧ ∃ t, exec (.jp nnn) s = .next t ∧
    t.pc.toNat = nnn.toNat ∧ changesOnly (fun e => e = .pc) s t

/-- `JP_V0`, the word with the nibble B and then `NNN`: `pc <- (V[0] + NNN) mod 4096`, and nothing else changes (R104). -/
def Obligations.OffsetJumpAddsRegisterZero : Prop :=
  ∀ (s : State) (nnn : BitVec 12), decodeWord (0xB#4 ++ nnn) = some (.jpV0 nnn) ∧ ∃ t, exec (.jpV0 nnn) s = .next t ∧
    t.pc.toNat = ((s.readV 0).toNat + nnn.toNat) % 4096 ∧ changesOnly (fun e => e = .pc) s t

/-- `CALL` with room: the return address `pc + 2` on top of the stack, `pc <- NNN`, nothing else (R103; the layout of the stack is
decision D21, log 22). -/
def Obligations.CallPushesTheReturnAddress : Prop :=
  ∀ (s : State) (nnn : BitVec 12) (k : Fin 16), s.SP.val = k.val → ∃ t, exec (.call nnn) s = .next t ∧
    t.stack[k].toNat = s.pcPlus 2 ∧ t.SP.val = k.val + 1 ∧ t.pc.toNat = nnn.toNat ∧
    changesOnly (fun e => e = .pc ∨ e = .SP ∨ e = .stack k) s t

/-- `RET` with an entry: `pc` is the popped entry, not advanced further; the entry is not erased (R101; the layout of the stack is
decision D21, log 22). -/
def Obligations.ReturnPopsTheTarget : Prop :=
  ∀ (s : State) (k : Fin 16), s.SP.val = k.val + 1 → ∃ t, exec .ret s = .next t ∧
    t.pc.toNat = s.stack[k].toNat % 4096 ∧ t.SP.val = k.val ∧ changesOnly (fun e => e = .pc ∨ e = .SP) s t

/-- `CALL` on a full stack raises `StackOverflow` and `RET` on an empty one `StackUnderflow`: `run` and `fault` change and nothing
else, `pc` still at the instruction (R101, R103, R171, R172, R174, decision D13, log 14). -/
def Obligations.StackFaultsHaltPrecisely : Prop :=
  ∀ (s : State) (nnn : BitVec 12),
    (s.SP.val = 16 → exec (.call nnn) s = .next { s with run := .halt, fault := some .stackOverflow }) ∧
    (s.SP.val = 0 → exec .ret s = .next { s with run := .halt, fault := some .stackUnderflow })

/-- The four skips on registers: over the next instruction exactly when the condition holds; only `pc` changes (R105 to R108). -/
def Obligations.RegisterSkipsFollowTheirConditions : Prop :=
  ∀ (s : State) (x y : Nibble) (kk : Byte),
    (∃ t, exec (.seK x kk) s = .next t ∧ changesOnly (fun e => e = .pc) s t ∧
      t.pc.toNat = s.pcPlus (if (s.readV x).toNat = kk.toNat then 4 else 2)) ∧
    (∃ t, exec (.sneK x kk) s = .next t ∧ changesOnly (fun e => e = .pc) s t ∧
      t.pc.toNat = s.pcPlus (if (s.readV x).toNat = kk.toNat then 2 else 4)) ∧
    (∃ t, exec (.seV x y) s = .next t ∧ changesOnly (fun e => e = .pc) s t ∧
      t.pc.toNat = s.pcPlus (if (s.readV x).toNat = (s.readV y).toNat then 4 else 2)) ∧
    (∃ t, exec (.sneV x y) s = .next t ∧ changesOnly (fun e => e = .pc) s t ∧
      t.pc.toNat = s.pcPlus (if (s.readV x).toNat = (s.readV y).toNat then 2 else 4))

/-- A return comes back to the instruction after the call, with the stack as deep as before it (R101, R103). -/
def Obligations.ReturnUndoesACall : Prop :=
  ∀ (s t : State) (nnn : BitVec 12), s.SP.val < 16 → exec (.call nnn) s = .next t →
    ∃ u, exec .ret t = .next u ∧ u.pc.toNat = s.pcPlus 2 ∧ u.SP = s.SP

/-- "17 consecutive CALL instructions without a RET raises `StackOverflow` on the 17th": from an empty stack sixteen calls go through,
whatever their targets, and the seventeenth halts the core at its own address (R171; `HALT` is decision D13, log 14). -/
def Obligations.SeventeenthCallOverflows : Prop :=
  ∀ (f : Nat → State) (target : Nat → BitVec 12), (f 0).SP.val = 0 → (f 0).run = .run →
    (∀ k ≤ 16, exec (.call (target k)) (f k) = .next (f (k + 1))) →
    (∀ k ≤ 16, (f k).SP.val = k ∧ (f k).run = .run) ∧
      (f 17).run = .halt ∧ (f 17).fault = some .stackOverflow ∧ (f 17).pc = (f 16).pc ∧ (f 17).SP = (f 16).SP

/-! ## Register load, arithmetic and logic (42_alu.md) -/

/-- `LD_K`, `ADD_K`, `LD_V`: the value, no flag; with `X = 15` it is `VF` that receives it as data (R111, R112, R113). -/
def Obligations.LoadsAndAddImmediateWriteOneRegister : Prop :=
  ∀ (s : State) (x y : Nibble) (kk : Byte),
    (∃ t, exec (.ldK x kk) s = .next t ∧ t.readV x = kk ∧ t.pc.toNat = s.pcPlus 2 ∧
      changesOnly (fun e => e = .V x ∨ e = .pc) s t) ∧
    (∃ t, exec (.addK x kk) s = .next t ∧ (t.readV x).toNat = ((s.readV x).toNat + kk.toNat) % 256 ∧
      t.pc.toNat = s.pcPlus 2 ∧ changesOnly (fun e => e = .V x ∨ e = .pc) s t) ∧
    (∃ t, exec (.ldV x y) s = .next t ∧ t.readV x = s.readV y ∧ t.pc.toNat = s.pcPlus 2 ∧
      changesOnly (fun e => e = .V x ∨ e = .pc) s t)

/-- `OR`, `AND`, `XOR`, bit by bit; `VF` is left alone unless it is the destination (R114, R115, R116). -/
def Obligations.LogicWorksBitByBit : Prop :=
  ∀ (s : State) (x y : Nibble),
    (∃ t, exec (.orV x y) s = .next t ∧
      (∀ b, (t.readV x).getLsbD b = ((s.readV x).getLsbD b || (s.readV y).getLsbD b)) ∧
      t.pc.toNat = s.pcPlus 2 ∧ changesOnly (fun e => e = .V x ∨ e = .pc) s t) ∧
    (∃ t, exec (.andV x y) s = .next t ∧
      (∀ b, (t.readV x).getLsbD b = ((s.readV x).getLsbD b && (s.readV y).getLsbD b)) ∧
      t.pc.toNat = s.pcPlus 2 ∧ changesOnly (fun e => e = .V x ∨ e = .pc) s t) ∧
    (∃ t, exec (.xorV x y) s = .next t ∧
      (∀ b, (t.readV x).getLsbD b = ((s.readV x).getLsbD b ^^ (s.readV y).getLsbD b)) ∧
      t.pc.toNat = s.pcPlus 2 ∧ changesOnly (fun e => e = .V x ∨ e = .pc) s t)

/-- `ADD_V`: `VF` is 1 exactly when the sum of the old values exceeds 255, for every `X` and `Y`; `V[X]` is the sum modulo 256 unless
`X = 15`, when only the flag remains (R117, R124; the flag last is decision D5, log 6). -/
def Obligations.AddSetsCarryAndWraps : Prop :=
  ∀ (s : State) (x y : Nibble), ∃ t, exec (.addV x y) s = .next t ∧
    t.readV 15 = (if 255 < (s.readV x).toNat + (s.readV y).toNat then 1 else 0) ∧
    (x ≠ 15 → (t.readV x).toNat = ((s.readV x).toNat + (s.readV y).toNat) % 256) ∧
    t.pc.toNat = s.pcPlus 2 ∧ changesOnly (fun e => e = .V x ∨ e = .V 15 ∨ e = .pc) s t

/-- `SUB` and `SUBN`: `VF` is 1 exactly when the minuend is at least the subtrahend (no borrow), judged on the old values; `V[X]` is the
difference modulo 256 unless `X = 15` (R118, R120, R124; the flag last is decision D5, log 6). -/
def Obligations.SubtractionsSetNoBorrow : Prop :=
  ∀ (s : State) (x y : Nibble),
    (∃ t, exec (.sub x y) s = .next t ∧
      t.readV 15 = (if (s.readV y).toNat ≤ (s.readV x).toNat then 1 else 0) ∧
      (x ≠ 15 → (t.readV x).toNat = ((s.readV x).toNat + 256 - (s.readV y).toNat) % 256) ∧
      t.pc.toNat = s.pcPlus 2 ∧ changesOnly (fun e => e = .V x ∨ e = .V 15 ∨ e = .pc) s t) ∧
    (∃ t, exec (.subn x y) s = .next t ∧
      t.readV 15 = (if (s.readV x).toNat ≤ (s.readV y).toNat then 1 else 0) ∧
      (x ≠ 15 → (t.readV x).toNat = ((s.readV y).toNat + 256 - (s.readV x).toNat) % 256) ∧
      t.pc.toNat = s.pcPlus 2 ∧ changesOnly (fun e => e = .V x ∨ e = .V 15 ∨ e = .pc) s t)

/-- `SHR` and `SHL` shift the register that `SHIFT_SRC` names, `V[Y]` under `VY` (the default, decision D20, log 21) and `V[X]` under `VX`,
by one and put the bit that falls out in `VF` (R6, R119, R121, R124; the flag last is decision D5, log 6). A source that is neither `V[X]`
nor `VF` is unchanged. -/
def Obligations.ShiftsMoveTheirSourceByOne : Prop :=
  ∀ (s : State) (x y r : Nibble), r = (if s.params.shiftSrc = .vx then x else y) →
    (∃ t, exec (.shr x y) s = .next t ∧ (t.readV 15).toNat = (s.readV r).toNat % 2 ∧
      (x ≠ 15 → (t.readV x).toNat = (s.readV r).toNat / 2) ∧
      t.pc.toNat = s.pcPlus 2 ∧ changesOnly (fun e => e = .V x ∨ e = .V 15 ∨ e = .pc) s t) ∧
    (∃ t, exec (.shl x y) s = .next t ∧ (t.readV 15).toNat = (s.readV r).toNat / 128 ∧
      (x ≠ 15 → (t.readV x).toNat = (s.readV r).toNat * 2 % 256) ∧
      t.pc.toNat = s.pcPlus 2 ∧ changesOnly (fun e => e = .V x ∨ e = .V 15 ∨ e = .pc) s t)

/-- Every instruction but a shift with `Y` different from `X` does the same on machines that differ in `SHIFT_SRC` alone, and with `VX`
the `Y` field of a shift is ignored (R6, R119, R121, 93_implementation_defined.md U1, decision D20, log 21). -/
def Obligations.ShiftSourceMattersOnlyForDistinctRegisters : Prop :=
  (∀ (i : Instr) (s t : State) (src : Config.ShiftSrc), (∀ x y, i = .shr x y ∨ i = .shl x y → x = y) → exec i s = .next t →
    exec i { s with params := { s.params with shiftSrc := src } } =
      .next { t with params := { s.params with shiftSrc := src } }) ∧
  (∀ (s : State) (x y z : Nibble), s.params.shiftSrc = .vx →
    exec (.shr x y) s = exec (.shr x z) s ∧ exec (.shl x y) s = exec (.shl x z) s)

/-- `RND`: the random byte of the `Step`, and with `KK`; nothing is assumed of the byte (R122, decision D10, log 11). -/
def Obligations.RandomByteIsMasked : Prop :=
  ∀ (s : State) (x : Nibble) (kk : Byte), ∃ t, exec (.rnd x kk) s = .next t ∧
    (∀ b, (t.readV x).getLsbD b = (s.rnd.getLsbD b && kk.getLsbD b)) ∧
    t.pc.toNat = s.pcPlus 2 ∧ changesOnly (fun e => e = .V x ∨ e = .pc) s t

/-! ## Index register and memory (43_index_memory.md) -/

/-- `LD_I`, `ADD_I`, `LD_F`: the index register's three writers; no flag, no memory (R130, R131, R132; the formula of `LD_F` on a whole
byte is decision D8, log 9). -/
def Obligations.IndexRegisterIsSetAddedAndPointed : Prop :=
  ∀ (s : State) (x : Nibble) (nnn : BitVec 12),
    (∃ t, exec (.ldI nnn) s = .next t ∧ t.I.toNat = nnn.toNat ∧ t.pc.toNat = s.pcPlus 2 ∧
      changesOnly (fun e => e = .I ∨ e = .pc) s t) ∧
    (∃ t, exec (.addI x) s = .next t ∧ t.I.toNat = (s.I.toNat + (s.readV x).toNat) % 4096 ∧ t.pc.toNat = s.pcPlus 2 ∧
      changesOnly (fun e => e = .I ∨ e = .pc) s t) ∧
    (∃ t, exec (.ldF x) s = .next t ∧ t.I.toNat = (s.readV x).toNat * 5 ∧ t.pc.toNat = s.pcPlus 2 ∧
      changesOnly (fun e => e = .I ∨ e = .pc) s t)

/-- `LD_B`: the three decimal digits at the addresses `dataAddr 0`, `dataAddr 1`, `dataAddr 2`, each masked; a store into the glyph
table is discarded (decision D11, log 12); every other byte, and everything else but `pc`, is unchanged (R133). -/
def Obligations.DecimalDigitsAreStored : Prop :=
  ∀ (s : State) (x : Nibble), ∃ t, exec (.ldB x) s = .next t ∧
    (∀ a, a % 4096 = s.dataAddr 0 % 4096 → 0x50 ≤ a % 4096 → (t.readByte a).toNat = (s.readV x).toNat / 100) ∧
    (∀ a, a % 4096 = s.dataAddr 1 % 4096 → 0x50 ≤ a % 4096 → (t.readByte a).toNat = (s.readV x).toNat / 10 % 10) ∧
    (∀ a, a % 4096 = s.dataAddr 2 % 4096 → 0x50 ≤ a % 4096 → (t.readByte a).toNat = (s.readV x).toNat % 10) ∧
    t.pc.toNat = s.pcPlus 2 ∧
    changesOnly (fun e => e = .pc ∨ ∃ a, e = .byte a ∧ 0x50 ≤ a % 4096 ∧ ∃ k < 3, a % 4096 = s.dataAddr k % 4096) s t

/-- `ST_REGS`: `V[k]` at the address `dataAddr k` for `k = 0` to `X`, each masked; a store into the glyph table is discarded (decision
D11, log 12); every other byte, and everything else but `pc`, is unchanged (R134). -/
def Obligations.RegisterBlockIsStored : Prop :=
  ∀ (s : State) (x : Nibble), ∃ t, exec (.stRegs x) s = .next t ∧
    (∀ (k : Nibble) (a : Nat), k ≤ x → a % 4096 = s.dataAddr k.toNat % 4096 → 0x50 ≤ a % 4096 → t.readByte a = s.readV k) ∧
    t.pc.toNat = s.pcPlus 2 ∧
    changesOnly (fun e => e = .pc ∨ ∃ a, e = .byte a ∧ 0x50 ≤ a % 4096 ∧
      ∃ k ≤ x.toNat, a % 4096 = s.dataAddr k % 4096) s t

/-- `LD_REGS`: `V[k]` from the address `dataAddr k` for `k = 0` to `X`; the registers above `X`, and everything else but `pc`, are
unchanged (R135). -/
def Obligations.RegisterBlockIsLoaded : Prop :=
  ∀ (s : State) (x : Nibble), ∃ t, exec (.ldRegs x) s = .next t ∧
    (∀ k : Nibble, k ≤ x → t.readV k = s.readByte (s.dataAddr k.toNat)) ∧
    t.pc.toNat = s.pcPlus 2 ∧ changesOnly (fun e => e = .pc ∨ ∃ k, e = .V k ∧ k ≤ x) s t

/-- A block stored and loaded back, outside the glyph table and with `I` unchanged, gives the registers back (R134, R135). -/
def Obligations.BlockStoreThenLoadRestores : Prop :=
  ∀ (s t u : State) (x : Nibble), 0x50 ≤ s.I.toNat → s.I.toNat + x.toNat < 4096 →
    exec (.stRegs x) s = .next t → exec (.ldRegs x) t = .next u → ∀ r, u.readV r = s.readV r

/-- The instruction fetched next sees the byte just stored: a byte of `ST_REGS` or `LD_B` stored outside the glyph table at the address the
instruction leaves in `pc`, or the one after it, is the high, or the low, byte of the next word (R65, decision D24, log 24; a store into the
glyph table is discarded, decision D11, log 12). -/
def Obligations.StoreIsSeenByTheNextFetch : Prop :=
  (∀ (s : State) (x k : Nibble), k ≤ x → 0x50 ≤ s.dataAddr k.toNat % 4096 → ∃ t, exec (.stRegs x) s = .next t ∧
    (s.dataAddr k.toNat % 4096 = t.pc.toNat → t.fetchWord.toNat / 256 = (s.readV k).toNat) ∧
    (s.dataAddr k.toNat % 4096 = t.pcPlus 1 → t.fetchWord.toNat % 256 = (s.readV k).toNat)) ∧
  (∀ (s : State) (x : Nibble) (k digit : Nat),
    (k, digit) ∈ [(0, (s.readV x).toNat / 100), (1, (s.readV x).toNat / 10 % 10), (2, (s.readV x).toNat % 10)] →
    0x50 ≤ s.dataAddr k % 4096 → ∃ t, exec (.ldB x) s = .next t ∧
    (s.dataAddr k % 4096 = t.pc.toNat → t.fetchWord.toNat / 256 = digit) ∧
    (s.dataAddr k % 4096 = t.pcPlus 1 → t.fetchWord.toNat % 256 = digit))

/-- Equal memories are equal data: two lists in canonical form that read the same at every address, over whatever glyph
table, are the same list (log 23). -/
def Obligations.CanonicalMemoriesThatReadAlikeAreEqual : Prop :=
  ∀ (rom : Config.GlyphRom) (m n : Memory), m.wf rom → n.wf rom → (∀ a < 4096, m.read rom a = n.read rom a) → m = n

/-! ## Display (44_display.md) -/

/-- `CLS`: every pixel unset, the render-needed signal raised always, nothing else but `pc` (R141). -/
def Obligations.ClearBlanksTheDisplay : Prop :=
  ∀ s : State, ∃ t, exec .cls s = .next t ∧ (∀ x y, pixelAt t.px x y = false) ∧ t.renderNeeded = true ∧
    t.pc.toNat = s.pcPlus 2 ∧
    changesOnly (fun e => e = .pc ∨ e = .renderNeeded ∨ ∃ x y, e = .pixel x y) s t

/-- `drawSprite`: a pixel is flipped exactly when a set bit of the sprite lands on it at wrapped coordinates; the collision bit says
that some flipped pixel was set; the changed bit says that the sprite has a set bit (R142). -/
def Obligations.DrawSpriteFlipsTheCoveredPixels : Prop :=
  ∀ (x0 y0 : Nat) (rows : List Byte) (px : Pixels), rows.length ≤ 15 →
    (∀ x y, spriteCovers x0 y0 rows x y → pixelAt (drawSprite x0 y0 rows px).px x y = !pixelAt px x y) ∧
    (∀ x y, ¬ spriteCovers x0 y0 rows x y → pixelAt (drawSprite x0 y0 rows px).px x y = pixelAt px x y) ∧
    ((drawSprite x0 y0 rows px).collision = true ↔ ∃ x y, spriteCovers x0 y0 rows x y ∧ pixelAt px x y = true) ∧
    ((drawSprite x0 y0 rows px).changed = true ↔ ∃ x y, spriteCovers x0 y0 rows x y)

/-- `DRW`: the `N` bytes from `dataAddr 0` drawn at the old (`V[X]`, `V[Y]`); `VF` is the collision, for every `X`, `Y` and `N`, zero
rows among them (R143, R144; `N = 0` is decision D19, log 20; the flag last is decision D5, log 6); the signal is raised when a pixel
changed, and keeps its value else; every pixel not covered, and everything else but `pc`, is unchanged. -/
def Obligations.DrawFlipsPixelsAndReportsCollision : Prop :=
  ∀ (s : State) (x y n : Nibble) (rows : List Byte), rows.length = n.toNat →
    (∀ k (h : k < rows.length), rows[k] = s.readByte (s.dataAddr k)) →
    ∃ t, exec (.drw x y n) s = .next t ∧
      (∀ u v, spriteCovers (s.readV x).toNat (s.readV y).toNat rows u v → pixelAt t.px u v = !pixelAt s.px u v) ∧
      ((∃ u v, spriteCovers (s.readV x).toNat (s.readV y).toNat rows u v ∧ pixelAt s.px u v = true) → t.readV 15 = 1) ∧
      ((¬ ∃ u v, spriteCovers (s.readV x).toNat (s.readV y).toNat rows u v ∧ pixelAt s.px u v = true) → t.readV 15 = 0) ∧
      ((∃ row ∈ rows, row ≠ 0) → t.renderNeeded = true) ∧
      ((∀ row ∈ rows, row = 0) → t.renderNeeded = s.renderNeeded) ∧
      t.pc.toNat = s.pcPlus 2 ∧
      changesOnly (fun e => e = .pc ∨ e = .V 15 ∨ e = .renderNeeded ∨
        ∃ u v, e = .pixel u v ∧ spriteCovers (s.readV x).toNat (s.readV y).toNat rows u v) s t

/-- Drawing the same sprite at the same place twice restores the buffer (R145 (a)). The second draw reports a collision exactly when
some covered pixel was unset before the first: over a rectangle that was blank, exactly when some byte of the sprite is nonzero. (For a
buffer that is not blank there R145 (a), a derived rule, says more than R142 gives: log 31.) -/
def Obligations.DrawingTwiceRestoresTheBuffer : Prop :=
  ∀ (x0 y0 : Nat) (rows : List Byte) (px : Pixels), rows.length ≤ 15 →
    (drawSprite x0 y0 rows (drawSprite x0 y0 rows px).px).px = px ∧
    ((drawSprite x0 y0 rows (drawSprite x0 y0 rows px).px).collision = true ↔
      ∃ x y, spriteCovers x0 y0 rows x y ∧ pixelAt px x y = false) ∧
    ((∀ x y, spriteCovers x0 y0 rows x y → pixelAt px x y = false) →
      ((drawSprite x0 y0 rows (drawSprite x0 y0 rows px).px).collision = true ↔ ∃ row ∈ rows, row ≠ 0))

/-! ## Keys and timers (45_keys_timers.md) -/

/-- `SKP` and `SKNP`: the key whose number is the low digit of `V[X]` (decision D7, log 8), in the snapshot of the current `Step`;
only `pc` changes (R150, R151). -/
def Obligations.KeySkipsReadTheSnapshot : Prop :=
  ∀ (s : State) (x : Nibble),
    (∃ t, exec (.skp x) s = .next t ∧ changesOnly (fun e => e = .pc) s t ∧
      t.pc.toNat = s.pcPlus (if s.keys.getLsbD ((s.readV x).toNat % 16) = true then 4 else 2)) ∧
    (∃ t, exec (.sknp x) s = .next t ∧ changesOnly (fun e => e = .pc) s t ∧
      t.pc.toNat = s.pcPlus (if s.keys.getLsbD ((s.readV x).toNat % 16) = true then 2 else 4))

/-- `LD_V_DT`, `LD_DT_V`, `LD_ST_V`: the only moves between a register and a timer (R40, R152, R155, R156): no other instruction changes a
timer, and none but `LD_V_DT` leaves registers that depend on one. -/
def Obligations.TimersAreReadAndSet : Prop :=
  (∀ (s : State) (x : Nibble),
    (∃ t, exec (.ldVDt x) s = .next t ∧ t.readV x = s.DT ∧ t.pc.toNat = s.pcPlus 2 ∧
      changesOnly (fun e => e = .V x ∨ e = .pc) s t) ∧
    (∃ t, exec (.ldDtV x) s = .next t ∧ t.DT = s.readV x ∧ t.pc.toNat = s.pcPlus 2 ∧
      changesOnly (fun e => e = .DT ∨ e = .pc) s t) ∧
    (∃ t, exec (.ldStV x) s = .next t ∧ t.ST = s.readV x ∧ t.pc.toNat = s.pcPlus 2 ∧
      changesOnly (fun e => e = .ST ∨ e = .pc) s t)) ∧
  (∀ (i : Instr) (s t : State), exec i s = .next t →
    (t.DT = s.DT ∨ ∃ x, i = .ldDtV x) ∧ (t.ST = s.ST ∨ ∃ x, i = .ldStV x)) ∧
  (∀ (i : Instr) (s t : State) (dt st : Byte), (∀ x, i ≠ .ldVDt x) → exec i s = .next t →
    ∃ u, exec i { s with DT := dt, ST := st } = .next u ∧ u.V = t.V)

/-- `LD_V_KEY` arms the wait: `wait_x`, the baseline snapshot and `run`; neither `pc` nor any register changes (R153, decision D9,
log 10). -/
def Obligations.KeyWaitIsArmed : Prop :=
  ∀ (s : State) (x : Nibble), ∃ t, exec (.ldVKey x) s = .next t ∧
    t.waitX = x ∧ t.keysPrev = s.keys ∧ t.run = .wait ∧
    changesOnly (fun e => e = .waitX ∨ e = .keysPrev ∨ e = .run) s t

/-! ## The whole machine -/

/-- The invariant holds after reset, for a machine built with any parameters. -/
def Obligations.ResetMeetsTheInvariant : Prop := ∀ p : Params, (State.resetWith p).Inv

/-- Every event keeps the invariant of R42: `pc`, `I` and the stack entries stay below 4096, the glyph table stands, a fault is recorded
exactly in `HALT`, memory stays canonical; and the parameters stay what they are (the read-only glyph table is decision D11, log 12; a
fault in `HALT` is decision D13, log 14; `pc` modulo 4096 is decision D3, log 4; the canonical form and the parameters in the state are
the model's, log 23 and 32). -/
def Obligations.EveryStepKeepsTheInvariant : Prop :=
  ∀ s t : State, s.Inv → step s = .next t → t.Inv ∧ t.params = s.params

/-- Every step answers a next state, but for a `Load` after a `Load` or a `Step`, which is refused by name: nothing faults and no
instruction is refused (R170; the refusal is the model's for what R202 and R193 give no meaning, decision D15, log 16). -/
def Obligations.EveryStepAnswers : Prop :=
  ∀ s : State,
    ((∃ t, step s = .next t) ↔ ¬ (s.loadOpen = false ∧ ∃ bytes rest, s.pending = .load bytes :: rest)) ∧
    ((s.loadOpen = false ∧ ∃ bytes rest, s.pending = .load bytes :: rest) → step s = .refused .loadNotOpen)

/-- "Never altered by any opcode": no instruction, in any state, changes what an address below 0x50 reads as (R55, decision D11,
log 12). -/
def Obligations.NoInstructionAltersTheGlyphTable : Prop :=
  ∀ (i : Instr) (s t : State) (a : Nat), a % 4096 < 0x50 → exec i s = .next t → t.readByte a = s.readByte a

/-- The elements with named writers: memory is written only by `LD_B` and `ST_REGS` (R52), the display only by `CLS` and `DRW` (R34),
the stack and `SP` only by `CALL` and `RET` (R27), `I` only by `LD_I`, `ADD_I` and `LD_F` (R26), `DT` only by `LD_DT_V` (R31), `ST` only
by `LD_ST_V` (R32): in particular no instruction decrements a timer. -/
def Obligations.StateElementsHaveNamedWriters : Prop :=
  ∀ (i : Instr) (s t : State), exec i s = .next t →
    (t.mem = s.mem ∨ ∃ x, i = .ldB x ∨ i = .stRegs x) ∧
    ((t.px = s.px ∧ t.renderNeeded = s.renderNeeded) ∨ i = .cls ∨ ∃ x y n, i = .drw x y n) ∧
    ((t.stack = s.stack ∧ t.SP = s.SP) ∨ i = .ret ∨ ∃ nnn, i = .call nnn) ∧
    (t.I = s.I ∨ (∃ nnn, i = .ldI nnn) ∨ ∃ x, i = .addI x ∨ i = .ldF x) ∧
    (t.DT = s.DT ∨ ∃ x, i = .ldDtV x) ∧ (t.ST = s.ST ∨ ∃ x, i = .ldStV x)

/-- The six forms that write `VF` as a flag leave 0 or 1 there whatever their operands; every other form leaves `VF` alone unless it is its
destination as data: its `X` field is 15 (R22, R42 (f); that the flag wins for `X = 15` is decision D5, log 6). -/
def Obligations.OnlySixFormsWriteTheFlag : Prop :=
  ∀ (i : Instr) (s t : State), exec i s = .next t →
    ((∃ x y, i = .addV x y ∨ i = .sub x y ∨ i = .shr x y ∨ i = .subn x y ∨ i = .shl x y ∨ ∃ n, i = .drw x y n) →
      t.readV 15 = 0 ∨ t.readV 15 = 1) ∧
    (¬ (∃ x y, i = .addV x y ∨ i = .sub x y ∨ i = .shr x y ∨ i = .subn x y ∨ i = .shl x y ∨ ∃ n, i = .drw x y n) →
      ¬ ((∃ kk, i = .ldK 15 kk ∨ i = .addK 15 kk ∨ i = .rnd 15 kk) ∨
        (∃ y, i = .ldV 15 y ∨ i = .orV 15 y ∨ i = .andV 15 y ∨ i = .xorV 15 y) ∨ i = .ldVDt 15 ∨ i = .ldRegs 15) →
      t.readV 15 = s.readV 15)

/-- `HALT` is entered only by a `CALL` on a full stack, a `RET` on an empty one, or a `Load` that is too long (R170, R171, R174, R175;
`HALT` itself is decision D13, log 14). -/
def Obligations.HaltIsEnteredOnlyByTheFatalConditions : Prop :=
  ∀ s t : State, step s = .next t → s.run ≠ .halt → t.run = .halt →
    (∃ nnn, decodeWord s.fetchWord = some (.call nnn) ∧ s.SP.val = 16 ∧ t.fault = some .stackOverflow) ∨
    (decodeWord s.fetchWord = some .ret ∧ s.SP.val = 0 ∧ t.fault = some .stackUnderflow) ∨
    (∃ bytes rest, s.pending = .load bytes :: rest ∧ 3584 < bytes.length ∧ t.fault = some .capacityExceeded)

/-- `HALT` is left only by `Reset`; until then only the timers, the render-needed signal and the ports can change, and `fault` holds
the first condition (R173, decision D13, log 14). -/
def Obligations.HaltIsLeftOnlyByReset : Prop :=
  ∀ s t : State, s.Inv → step s = .next t → s.run = .halt →
    (∃ rest, s.pending = .reset :: rest) ∨
    t = { s with DT := t.DT, ST := t.ST, renderNeeded := t.renderNeeded, keys := t.keys, rnd := t.rnd,
                 pending := t.pending, draws := t.draws }

/-- `WAIT` is entered only by an `FX0A`, and left only by a key that was up in the previous snapshot and is down in this one, or by
`Reset` (R158, decision D9, log 10). -/
def Obligations.WaitIsEnteredByTheKeyInstructionOnly : Prop :=
  ∀ s t : State, s.Inv → step s = .next t →
    (s.run ≠ .wait → t.run = .wait → ∃ x, decodeWord s.fetchWord = some (.ldVKey x) ∧ t.waitX = x ∧ t.pc = s.pc) ∧
    (s.run = .wait → t.run ≠ .wait →
      (∃ k < 16, t.keys.getLsbD k = true ∧ s.keysPrev.getLsbD k = false) ∨ ∃ rest, s.pending = .reset :: rest)

/-- A step emits one `diag` event exactly when it is a `Step` in `RUN` that fetches an unknown word, and none otherwise; what was
emitted stays emitted (R96, R98, R176, R192; decision D14, log 15). -/
def Obligations.AtMostOneReportAStep : Prop :=
  ∀ s t : State, step s = .next t →
    (s.run = .run ∧ decodeWord s.fetchWord = none ∧ (s.pending = [] ∨ ∃ keys rnd rest, s.pending = .step keys rnd :: rest) →
      t.diag = s.diag ++ [⟨BitVec.ofNat 12 s.pc.toNat, s.fetchWord⟩]) ∧
    (¬ (s.run = .run ∧ decodeWord s.fetchWord = none ∧
        (s.pending = [] ∨ ∃ keys rnd rest, s.pending = .step keys rnd :: rest)) → t.diag = s.diag)

/-- The edges of `tone_active`, event by event: `LD_ST_V` between zero and nonzero, the `Tick` from 1 to 0, `Reset` while sounding, and
no other event (R184; that the level is `ST != 0` is decision D17, log 18). -/
def Obligations.ToneEdgesComeFromNamedEvents : Prop :=
  (∀ (i : Instr) (s t : State), exec i s = .next t → (∀ x, i ≠ .ldStV x) → toneEdge s t = none) ∧
  (∀ (x : Nibble) (s t : State), exec (.ldStV x) s = .next t →
    (toneEdge s t = some .rising ↔ s.ST = 0 ∧ s.readV x ≠ 0) ∧
    (toneEdge s t = some .falling ↔ s.ST ≠ 0 ∧ s.readV x = 0)) ∧
  (∀ s : State, toneEdge s s.tick = if s.ST.toNat = 1 then some .falling else none) ∧
  (∀ s : State, toneEdge s s.resetEvent = if s.ST = 0 then none else some .falling) ∧
  (∀ (s : State) (w : Word), toneEdge s s.renderAck = none ∧ toneEdge s s.pollWait = none ∧ toneEdge s (s.unknownWord w) = none) ∧
  (∀ (s t : State) (bytes : List Byte), s.load bytes = .next t → toneEdge s t = none)

/-- A jump to itself is a fixed point: every further `Step` leaves the core as it is (R205, decision D25, log 25). -/
def Obligations.FinishedProgramStaysFinished : Prop :=
  ∀ (s : State) (keys : BitVec 16) (rnd : Byte) (rest : List HostEvent), s.finished →
    s.pending = .step keys rnd :: rest →
    step s = .next { s with pending := rest, keys := keys, rnd := rnd, loadOpen := false }

/-- The sound timer and the render-needed signal are invisible to the program: two machines that differ in nothing else run, for any
number of steps, through states that differ in nothing else (R32 and R35: no instruction reads them; R208). -/
def Obligations.SoundTimerAndSignalAreInvisible : Prop :=
  ∀ (n : Nat) (s t : State) (st : Byte) (signal : Bool), Sys2Proof.core.run n s = .next t →
    ∃ (st' : Byte) (signal' : Bool),
      Sys2Proof.core.run n { s with ST := st, renderNeeded := signal } = .next { t with ST := st', renderNeeded := signal' }
end

