-- ==== Sys2Proof/Laws/Decode.lean ====
section
/-!
SUPPORT. The words the encoder builds and the fields the decoder takes out of a word, both as arithmetic on natural numbers
(30_encoding.md R71: `KK = Y * 16 + N`, `NNN = X * 256 + KK`), so that either direction of the round trip is arithmetic.
-/

namespace Sys2Proof

/-! ## Fields and built words as numbers -/

theorem toNat_fieldOP (w : Word) : (fieldOP w).toNat = w.toNat / 4096 := by
  have := w.isLt
  rw [fieldOP, BitVec.extractLsb'_toNat, Nat.shiftRight_eq_div_pow]
  omega

theorem toNat_fieldX (w : Word) : (fieldX w).toNat = w.toNat / 256 % 16 := by
  rw [fieldX, BitVec.extractLsb'_toNat, Nat.shiftRight_eq_div_pow]

theorem toNat_fieldY (w : Word) : (fieldY w).toNat = w.toNat / 16 % 16 := by
  rw [fieldY, BitVec.extractLsb'_toNat, Nat.shiftRight_eq_div_pow]

theorem toNat_fieldN (w : Word) : (fieldN w).toNat = w.toNat % 16 := by
  rw [fieldN, BitVec.extractLsb'_toNat, Nat.shiftRight_eq_div_pow, Nat.pow_zero, Nat.div_one]

theorem toNat_fieldKK (w : Word) : (fieldKK w).toNat = w.toNat % 256 := by
  rw [fieldKK, BitVec.extractLsb'_toNat, Nat.shiftRight_eq_div_pow, Nat.pow_zero, Nat.div_one]

theorem toNat_fieldNNN (w : Word) : (fieldNNN w).toNat = w.toNat % 4096 := by
  rw [fieldNNN, BitVec.extractLsb'_toNat, Nat.shiftRight_eq_div_pow, Nat.pow_zero, Nat.div_one]

theorem toNat_wordNNN (op : Nibble) (nnn : BitVec 12) :
    (wordNNN op nnn).toNat = op.toNat * 4096 + nnn.toNat := by
  rw [wordNNN, BitVec.toNat_append, ← Nat.shiftLeft_add_eq_or_of_lt nnn.isLt, Nat.shiftLeft_eq]

theorem toNat_wordXKK (op x : Nibble) (kk : Byte) :
    (wordXKK op x kk).toNat = op.toNat * 4096 + x.toNat * 256 + kk.toNat := by
  have h : (x ++ kk : BitVec 12).toNat = x.toNat * 256 + kk.toNat := by
    rw [BitVec.toNat_append, ← Nat.shiftLeft_add_eq_or_of_lt kk.isLt, Nat.shiftLeft_eq]
  have h' := toNat_wordNNN op (x ++ kk : BitVec 12)
  rw [h] at h'
  rw [wordXKK, ← wordNNN, h', Nat.add_assoc]

theorem toNat_wordXYN (op x y n : Nibble) :
    (wordXYN op x y n).toNat = op.toNat * 4096 + x.toNat * 256 + y.toNat * 16 + n.toNat := by
  have h : (y ++ n : BitVec 8).toNat = y.toNat * 16 + n.toNat := by
    rw [BitVec.toNat_append, ← Nat.shiftLeft_add_eq_or_of_lt n.isLt, Nat.shiftLeft_eq]
  have h' := toNat_wordXKK op x (y ++ n : BitVec 8)
  rw [h] at h'
  rw [wordXYN, ← wordXKK, h', ← Nat.add_assoc]

/-! ## Fields of a built word -/

@[simp] theorem fieldOP_wordNNN (op : Nibble) (nnn : BitVec 12) : fieldOP (wordNNN op nnn) = op := by
  have := op.isLt; have := nnn.isLt
  apply BitVec.eq_of_toNat_eq; rw [toNat_fieldOP, toNat_wordNNN]; omega

@[simp] theorem fieldNNN_wordNNN (op : Nibble) (nnn : BitVec 12) : fieldNNN (wordNNN op nnn) = nnn := by
  have := nnn.isLt
  apply BitVec.eq_of_toNat_eq; rw [toNat_fieldNNN, toNat_wordNNN]; omega

@[simp] theorem fieldOP_wordXKK (op x : Nibble) (kk : Byte) : fieldOP (wordXKK op x kk) = op := by
  have := x.isLt; have := kk.isLt
  apply BitVec.eq_of_toNat_eq; rw [toNat_fieldOP, toNat_wordXKK]; omega

@[simp] theorem fieldX_wordXKK (op x : Nibble) (kk : Byte) : fieldX (wordXKK op x kk) = x := by
  have := x.isLt; have := kk.isLt
  apply BitVec.eq_of_toNat_eq; rw [toNat_fieldX, toNat_wordXKK]; omega

@[simp] theorem fieldKK_wordXKK (op x : Nibble) (kk : Byte) : fieldKK (wordXKK op x kk) = kk := by
  have := kk.isLt
  apply BitVec.eq_of_toNat_eq; rw [toNat_fieldKK, toNat_wordXKK]; omega

@[simp] theorem fieldOP_wordXYN (op x y n : Nibble) : fieldOP (wordXYN op x y n) = op := by
  have := x.isLt; have := y.isLt; have := n.isLt
  apply BitVec.eq_of_toNat_eq; rw [toNat_fieldOP, toNat_wordXYN]; omega

@[simp] theorem fieldX_wordXYN (op x y n : Nibble) : fieldX (wordXYN op x y n) = x := by
  have := x.isLt; have := y.isLt; have := n.isLt
  apply BitVec.eq_of_toNat_eq; rw [toNat_fieldX, toNat_wordXYN]; omega

@[simp] theorem fieldY_wordXYN (op x y n : Nibble) : fieldY (wordXYN op x y n) = y := by
  have := y.isLt; have := n.isLt
  apply BitVec.eq_of_toNat_eq; rw [toNat_fieldY, toNat_wordXYN]; omega

@[simp] theorem fieldN_wordXYN (op x y n : Nibble) : fieldN (wordXYN op x y n) = n := by
  have := n.isLt
  apply BitVec.eq_of_toNat_eq; rw [toNat_fieldN, toNat_wordXYN]; omega

/-! ## A word put together from its own fields -/

theorem wordNNN_fields (w : Word) : wordNNN (fieldOP w) (fieldNNN w) = w := by
  apply BitVec.eq_of_toNat_eq; rw [toNat_wordNNN, toNat_fieldOP, toNat_fieldNNN]; omega

theorem wordXKK_fields (w : Word) : wordXKK (fieldOP w) (fieldX w) (fieldKK w) = w := by
  apply BitVec.eq_of_toNat_eq; rw [toNat_wordXKK, toNat_fieldOP, toNat_fieldX, toNat_fieldKK]; omega

theorem wordXYN_fields (w : Word) : wordXYN (fieldOP w) (fieldX w) (fieldY w) (fieldN w) = w := by
  apply BitVec.eq_of_toNat_eq
  rw [toNat_wordXYN, toNat_fieldOP, toNat_fieldX, toNat_fieldY, toNat_fieldN]
  omega

/-! ## The two bytes of a word -/

theorem toNat_wordOfBytes (hi lo : Byte) : (wordOfBytes hi lo).toNat = hi.toNat * 256 + lo.toNat := by
  rw [wordOfBytes, BitVec.toNat_append, ← Nat.shiftLeft_add_eq_or_of_lt lo.isLt, Nat.shiftLeft_eq]

theorem toNat_highByte (w : Word) : (highByte w).toNat = w.toNat / 256 := by
  have := w.isLt
  rw [highByte, BitVec.extractLsb'_toNat, Nat.shiftRight_eq_div_pow]
  omega

theorem toNat_lowByte (w : Word) : (lowByte w).toNat = w.toNat % 256 := by
  rw [lowByte, BitVec.extractLsb'_toNat, Nat.shiftRight_eq_div_pow, Nat.pow_zero, Nat.div_one]

@[simp] theorem wordOfBytes_bytes (w : Word) : wordOfBytes (highByte w) (lowByte w) = w := by
  apply BitVec.eq_of_toNat_eq; rw [toNat_wordOfBytes, toNat_highByte, toNat_lowByte]; omega

/-- Decoding bytes is decoding their word (30_encoding.md R70). -/
theorem decode_cons_cons (hi lo : Byte) (rest : List Byte) {i : Instr}
    (h : decodeWord (wordOfBytes hi lo) = some i) : decode (hi :: lo :: rest) = .ok (i, rest) := by
  simp [decode, h]

end Sys2Proof
end

