-- ==== Sys2Proof/Laws/Display.lean ====
section
/-!
SUPPORT. The display buffer pixel by pixel: what flipping one pixel does, and one bit, one row of a sprite (44_display.md R142).
-/

namespace Sys2Proof.Machine

open Sys2Proof

theorem pixelAt_wrap (px : Pixels) (x y : Nat) : pixelAt px (x % 64) (y % 32) = pixelAt px x y := by
  simp [pixelAt]

/-- Two buffers with the same pixels are the same. -/
theorem pixels_ext {p q : Pixels} (h : ∀ x y, x < 64 → y < 32 → pixelAt p x y = pixelAt q x y) : p = q := by
  ext y hy x hx
  have := h x y hx hy
  simpa [pixelAt, Nat.mod_eq_of_lt hx, Nat.mod_eq_of_lt hy, BitVec.getLsbD_eq_getElem hx] using this

@[simp] theorem pixelAt_blank (x y : Nat) : pixelAt (Vector.replicate 32 0) x y = false := by
  simp [pixelAt]

/-- Flipping a pixel flips it and no other. -/
theorem pixelAt_flipPixel (px : Pixels) (x y u v : Nat) :
    pixelAt (flipPixel px x y) u v =
      (pixelAt px u v ^^ decide (x % 64 = u % 64 ∧ y % 32 = v % 32)) := by
  unfold pixelAt flipPixel
  by_cases hv : y % 32 = v % 32
  · have hu : u % 64 < 64 := Nat.mod_lt _ (by decide)
    simp [hv, hu]
    exact eq_comm
  · simp [hv]

/-- The buffer after one bit of a sprite. -/
theorem pixelAt_drawBit (x0 y : Nat) (row : Byte) (k : Canvas) (c u v : Nat) :
    pixelAt (drawBit x0 y row k c).px u v =
      (pixelAt k.px u v ^^ (row.getLsbD (7 - c) && decide ((x0 + c) % 64 = u % 64 ∧ y % 32 = v % 32))) := by
  unfold drawBit
  split
  next h => rw [pixelAt_flipPixel, h, Bool.true_and]
  next h => simp [h]

/-- Collision and change after one bit of a sprite. -/
theorem flags_drawBit (x0 y : Nat) (row : Byte) (k : Canvas) (c : Nat) :
    (drawBit x0 y row k c).collision = (k.collision || row.getLsbD (7 - c) && pixelAt k.px (x0 + c) y) ∧
      (drawBit x0 y row k c).changed = (k.changed || row.getLsbD (7 - c)) := by
  unfold drawBit
  split
  next h => simp [h]
  next h => simp [h]

end Sys2Proof.Machine
end

