-- ==== Sys2Proof/Laws/Memory.lean ====
section
/-!
SUPPORT. The laws of memory: read after write, what a write leaves alone, and that every operation keeps the canonical form and the
glyph table. They hold of every list, canonical or not, but where `wf` is named.
-/

namespace Sys2Proof.Machine

open Sys2Proof

/-! ## The sizes as numerals, for arithmetic -/

@[simp] theorem memSize_eq : Config.memSize = 4096 := rfl
@[simp] theorem glyphEnd_eq : Config.glyphEnd = 80 := rfl
@[simp] theorem loadBase_eq : Config.loadBase = 512 := rfl
@[simp] theorem programCapacity_eq : Config.programCapacity = 3584 := rfl
@[simp] theorem stackDepth_eq : Config.stackDepth = 16 := rfl

/-! ## Addresses -/

theorem maskAddr_eq (a : Nat) : maskAddr a = a % 4096 := rfl

theorem maskAddr_lt (a : Nat) : maskAddr a < Config.memSize := Nat.mod_lt a (by decide)

@[simp] theorem maskAddr_maskAddr (a : Nat) : maskAddr (maskAddr a) = maskAddr a := Nat.mod_mod a _

theorem maskAddr_of_lt {a : Nat} (h : a < Config.memSize) : maskAddr a = a := Nat.mod_eq_of_lt h

variable {rom : Config.GlyphRom}

/-! ## The reset contents -/

@[simp] theorem Memory.read_nil (a : Nat) : Memory.read [] rom a = resetByte rom (maskAddr a) := rfl

@[simp] theorem Memory.read_maskAddr (m : Memory) (a : Nat) : m.read rom (maskAddr a) = m.read rom a := by
  simp [Memory.read]

theorem resetByte_of_ge {a : Nat} (h : Config.glyphEnd ≤ a) : resetByte rom a = 0 := by
  simp [resetByte, Nat.not_lt.mpr h]

/-! ## Lookup against the two list operations -/

theorem Memory.lookup_erase (m : Memory) (a b : Nat) :
    (m.erase a).lookup rom b = if b = a then resetByte rom b else m.lookup rom b := by
  induction m with
  | nil => simp [Memory.erase, Memory.lookup]
  | cons c m ih =>
    simp only [Memory.erase, List.filter_cons] at ih ⊢
    by_cases hc : c.1 = a
    · have : ¬ (c.1 != a) = true := by simp [hc]
      rw [if_neg this, ih, Memory.lookup]
      by_cases hb : b = a
      · simp [hb]
      · have : ¬ c.1 = b := fun h => hb (h ▸ hc)
        simp [hb, this]
    · have : (c.1 != a) = true := by simp [hc]
      rw [if_pos this, Memory.lookup, Memory.lookup, ih]
      by_cases hb : b = a
      · simp [hb, hc]
      · simp [hb]

theorem Memory.lookup_insert {m : Memory} {c : Host.Cell} (hm : ∀ d ∈ m, d.1 ≠ c.1) (b : Nat) :
    (Memory.insert c m).lookup rom b = if b = c.1 then c.2 else m.lookup rom b := by
  induction m with
  | nil => simp [Memory.insert, Memory.lookup, eq_comm]
  | cons d m ih =>
    have hd : d.1 ≠ c.1 := hm d (by simp)
    rw [Memory.insert]
    split
    · simp [Memory.lookup, eq_comm]
    · rw [Memory.lookup, ih (fun e he => hm e (by simp [he])), Memory.lookup]
      by_cases hb : d.1 = b
      · have : ¬ b = c.1 := fun h => hd (hb.trans h)
        simp [hb, this]
      · simp [hb]

theorem Memory.mem_erase {m : Memory} {a : Nat} {d : Host.Cell} : d ∈ m.erase a ↔ d ∈ m ∧ d.1 ≠ a := by
  simp [Memory.erase]

theorem Memory.mem_insert {m : Memory} {c d : Host.Cell} : d ∈ Memory.insert c m ↔ d = c ∨ d ∈ m := by
  induction m with
  | nil => simp [Memory.insert]
  | cons e m ih =>
    rw [Memory.insert]
    split
    · simp
    · simp only [List.mem_cons, ih]
      tauto

/-! ## Read after write -/

theorem Memory.read_poke (m : Memory) (a b : Nat) (v : Byte) :
    (m.poke rom a v).read rom b = if maskAddr b = maskAddr a then v else m.read rom b := by
  unfold Memory.poke Memory.read
  dsimp only
  split
  next h =>
    rw [Memory.lookup_erase]
    by_cases hb : maskAddr b = maskAddr a
    · simp [hb, h]
    · simp [hb]
  next =>
    rw [Memory.lookup_insert (fun d hd => (Memory.mem_erase.mp hd).2), Memory.lookup_erase]
    by_cases hb : maskAddr b = maskAddr a <;> simp [hb]

/-- All a write does: its one byte reads as written unless it lies in the glyph table; every other byte reads as before. -/
theorem Memory.read_write (m : Memory) (a b : Nat) (v : Byte) :
    (m.write rom a v).read rom b =
      if maskAddr b = maskAddr a ∧ Config.glyphEnd ≤ maskAddr a then v else m.read rom b := by
  unfold Memory.write
  split
  next h => simp [Nat.not_le.mpr h]
  next h => simp [Memory.read_poke, Nat.not_lt.mp h]

/-- A write whose address misses `b` leaves `b` alone. -/
theorem Memory.read_write_of_ne {m : Memory} {a b : Nat} (v : Byte) (h : maskAddr b ≠ maskAddr a) :
    (m.write rom a v).read rom b = m.read rom b := by
  simp [Memory.read_write, h]

/-- No write reaches the glyph table. -/
theorem Memory.read_write_glyph (m : Memory) (a : Nat) (v : Byte) {b : Nat} (hb : maskAddr b < Config.glyphEnd) :
    (m.write rom a v).read rom b = m.read rom b := by
  rw [Memory.read_write, if_neg]
  rintro ⟨h, h'⟩
  omega

/-! ## Sequences -/

/-- A sequence written elsewhere leaves `b` alone. -/
theorem Memory.read_writeBytes_of_ne (bs : List Byte) (m : Memory) (a b : Nat)
    (h : ∀ k < bs.length, maskAddr b ≠ maskAddr (a + k)) : (m.writeBytes rom a bs).read rom b = m.read rom b := by
  induction bs generalizing m a with
  | nil => rfl
  | cons x bs ih =>
    rw [Memory.writeBytes, ih]
    · exact Memory.read_write_of_ne x (by simpa using h 0 (by simp))
    · intro k hk
      have := h (k + 1) (by simpa using hk)
      rwa [show a + (k + 1) = a + 1 + k by omega] at this

/-- No sequence of writes reaches the glyph table. -/
theorem Memory.read_writeBytes_glyph (bs : List Byte) (m : Memory) (a : Nat) {b : Nat}
    (hb : maskAddr b < Config.glyphEnd) : (m.writeBytes rom a bs).read rom b = m.read rom b := by
  induction bs generalizing m a with
  | nil => rfl
  | cons x bs ih => rw [Memory.writeBytes, ih, Memory.read_write_glyph m a x hb]

/-- The `k`-th byte of a sequence that does not meet itself reads as written, outside the glyph table. -/
theorem Memory.read_writeBytes (bs : List Byte) (m : Memory) (a b k : Nat) (hk : k < bs.length)
    (hlen : bs.length ≤ Config.memSize) (hb : maskAddr b = maskAddr (a + k))
    (hg : Config.glyphEnd ≤ maskAddr b) : (m.writeBytes rom a bs).read rom b = bs[k] := by
  induction bs generalizing m a k with
  | nil => simp at hk
  | cons x bs ih =>
    rw [Memory.writeBytes]
    cases k with
    | zero =>
      rw [Memory.read_writeBytes_of_ne]
      · rw [Memory.read_write, if_pos ⟨by simpa using hb, by simpa [hb] using hg⟩]
        rfl
      · intro j hj
        simp only [List.length_cons, maskAddr, Config.memSize] at *
        omega
    | succ k =>
      have hk' : k < bs.length := by simpa using hk
      exact ih (m.write rom a x) (a + 1) k hk' (by simp at hlen ⊢; omega)
        (by rw [hb, Nat.add_right_comm, Nat.add_assoc])

@[simp] theorem Memory.length_readBytes (m : Memory) (a n : Nat) : (m.readBytes rom a n).length = n := by
  induction n generalizing a with
  | zero => rfl
  | succ n ih => simp [Memory.readBytes, ih]

theorem Memory.getElem_readBytes (m : Memory) (a n k : Nat) (hk : k < (m.readBytes rom a n).length) :
    (m.readBytes rom a n)[k] = m.read rom (a + k) := by
  induction n generalizing a k with
  | zero => simp [Memory.readBytes] at hk
  | succ n ih =>
    cases k with
    | zero => rfl
    | succ k =>
      simp only [Memory.readBytes, List.getElem_cons_succ]
      rw [ih, Nat.add_right_comm, Nat.add_assoc]

/-! ## The canonical form is kept -/

theorem Memory.wf_nil : Memory.wf [] rom := by simp [Memory.wf]

theorem Memory.erase_wf {m : Memory} (a : Nat) (h : m.wf rom) : (m.erase a).wf rom :=
  ⟨h.1.sublist List.filter_sublist, fun c hc => h.2 c (Memory.mem_erase.mp hc).1⟩

theorem Memory.insert_wf {m : Memory} {c : Host.Cell} (h : m.wf rom) (hm : ∀ d ∈ m, d.1 ≠ c.1)
    (hc : c.1 < Config.memSize ∧ c.2 ≠ resetByte rom c.1) : (Memory.insert c m).wf rom := by
  refine ⟨?_, fun d hd => ?_⟩
  · induction m with
    | nil => simp [Memory.insert]
    | cons d m ih =>
      obtain ⟨hp, hr⟩ := h
      rw [List.pairwise_cons] at hp
      rw [Memory.insert]
      split
      next hlt =>
        refine List.pairwise_cons.mpr ⟨fun e he => ?_, List.pairwise_cons.mpr hp⟩
        rcases List.mem_cons.mp he with rfl | he
        · exact hlt
        · exact hlt.trans (hp.1 e he)
      next hge =>
        refine List.pairwise_cons.mpr ⟨fun e he => ?_, ih ⟨hp.2, fun e he => hr e (by simp [he])⟩ (fun e he => hm e (by simp [he]))⟩
        rcases Memory.mem_insert.mp he with rfl | he
        · have := hm d (by simp)
          omega
        · exact hp.1 e he
  · rcases Memory.mem_insert.mp hd with rfl | hd
    · exact hc
    · exact h.2 d hd

theorem Memory.poke_wf {m : Memory} (a : Nat) (v : Byte) (h : m.wf rom) : (m.poke rom a v).wf rom := by
  unfold Memory.poke
  dsimp only
  split
  next => exact Memory.erase_wf _ h
  next hv =>
    exact Memory.insert_wf (Memory.erase_wf _ h) (fun d hd => (Memory.mem_erase.mp hd).2) ⟨maskAddr_lt a, hv⟩

theorem Memory.write_wf {m : Memory} (a : Nat) (v : Byte) (h : m.wf rom) : (m.write rom a v).wf rom := by
  unfold Memory.write
  split
  · exact h
  · exact Memory.poke_wf a v h

theorem Memory.writeBytes_wf (bs : List Byte) {m : Memory} (a : Nat) (h : m.wf rom) : (m.writeBytes rom a bs).wf rom := by
  induction bs generalizing m a with
  | nil => exact h
  | cons x bs ih => exact ih (a + 1) (Memory.write_wf a x h)

/-! ## The glyph table is kept -/

theorem Memory.glyphIntact_nil : Memory.glyphIntact [] := by simp [Memory.glyphIntact]

theorem Memory.write_glyphIntact {m : Memory} (a : Nat) (v : Byte) (h : m.glyphIntact) :
    (m.write rom a v).glyphIntact := by
  unfold Memory.write Memory.poke
  dsimp only
  split
  next => exact h
  next ha =>
    split
    next => exact fun c hc => h c (Memory.mem_erase.mp hc).1
    next =>
      intro c hc
      rcases Memory.mem_insert.mp hc with rfl | hc
      · exact Nat.not_lt.mp ha
      · exact h c (Memory.mem_erase.mp hc).1

theorem Memory.writeBytes_glyphIntact (bs : List Byte) {m : Memory} (a : Nat) (h : m.glyphIntact) :
    (m.writeBytes rom a bs).glyphIntact := by
  induction bs generalizing m a with
  | nil => exact h
  | cons x bs ih => exact ih (a + 1) (Memory.write_glyphIntact a x h)

theorem Memory.lookup_of_not_mem {m : Memory} {a : Nat} (h : ∀ c ∈ m, c.1 ≠ a) : m.lookup rom a = resetByte rom a := by
  induction m with
  | nil => rfl
  | cons c m ih => rw [Memory.lookup, if_neg (h c (by simp)), ih (fun d hd => h d (by simp [hd]))]

/-- With the glyph table intact its addresses read as `GLYPH_ROM`. -/
theorem Memory.read_of_glyphIntact {m : Memory} (h : m.glyphIntact) {a : Nat} (ha : a < Config.glyphEnd) :
    m.read rom a = resetByte rom a := by
  have hm : maskAddr a = a := maskAddr_of_lt (Nat.lt_trans ha (by decide))
  rw [Memory.read, hm]
  exact Memory.lookup_of_not_mem fun c hc hca => absurd (h c hc) (by omega)

end Sys2Proof.Machine
end

