-- ==== Sys2Proof/Laws/State.lean ====
section
/-!
SUPPORT. One lemma per field per update, for every named operation over State: what it writes and, field by field, what it leaves
alone. With them no proof unfolds a record update. The lines are regular: operation, field, value.
-/

namespace Sys2Proof.Machine

open Sys2Proof

theorem flagByte_eq (b : Bool) : flagByte b = if b then 1 else 0 := rfl

/-- Reading a register after a register write. -/
theorem State.readV_writeV (s : State) (r q : Nibble) (v : Byte) :
    (s.writeV r v).readV q = if q = r then v else s.readV q := by
  simp [State.writeV, State.readV, Vector.getElem_set, BitVec.toNat_inj, eq_comm]

@[simp] theorem State.readV_writeV_self (s : State) (r : Nibble) (v : Byte) : (s.writeV r v).readV r = v := by
  simp [State.readV_writeV]

theorem State.readV_writeV_of_ne {s : State} {r q : Nibble} (v : Byte) (h : q ≠ r) :
    (s.writeV r v).readV q = s.readV q := by
  simp [State.readV_writeV, h]

/-! ### setPc -/

@[simp] theorem State.V_setPc (s : State) (t : Nat) : (s.setPc t).V = s.V := rfl
@[simp] theorem State.I_setPc (s : State) (t : Nat) : (s.setPc t).I = s.I := rfl
@[simp] theorem State.pc_setPc (s : State) (t : Nat) : (s.setPc t).pc = BitVec.ofNat 16 (t % Config.memSize) := rfl
@[simp] theorem State.stack_setPc (s : State) (t : Nat) : (s.setPc t).stack = s.stack := rfl
@[simp] theorem State.SP_setPc (s : State) (t : Nat) : (s.setPc t).SP = s.SP := rfl
@[simp] theorem State.DT_setPc (s : State) (t : Nat) : (s.setPc t).DT = s.DT := rfl
@[simp] theorem State.ST_setPc (s : State) (t : Nat) : (s.setPc t).ST = s.ST := rfl
@[simp] theorem State.mem_setPc (s : State) (t : Nat) : (s.setPc t).mem = s.mem := rfl
@[simp] theorem State.px_setPc (s : State) (t : Nat) : (s.setPc t).px = s.px := rfl
@[simp] theorem State.renderNeeded_setPc (s : State) (t : Nat) : (s.setPc t).renderNeeded = s.renderNeeded := rfl
@[simp] theorem State.run_setPc (s : State) (t : Nat) : (s.setPc t).run = s.run := rfl
@[simp] theorem State.fault_setPc (s : State) (t : Nat) : (s.setPc t).fault = s.fault := rfl
@[simp] theorem State.waitX_setPc (s : State) (t : Nat) : (s.setPc t).waitX = s.waitX := rfl
@[simp] theorem State.keysPrev_setPc (s : State) (t : Nat) : (s.setPc t).keysPrev = s.keysPrev := rfl
@[simp] theorem State.params_setPc (s : State) (t : Nat) : (s.setPc t).params = s.params := rfl
@[simp] theorem State.keys_setPc (s : State) (t : Nat) : (s.setPc t).keys = s.keys := rfl
@[simp] theorem State.rnd_setPc (s : State) (t : Nat) : (s.setPc t).rnd = s.rnd := rfl
@[simp] theorem State.pending_setPc (s : State) (t : Nat) : (s.setPc t).pending = s.pending := rfl
@[simp] theorem State.draws_setPc (s : State) (t : Nat) : (s.setPc t).draws = s.draws := rfl
@[simp] theorem State.diag_setPc (s : State) (t : Nat) : (s.setPc t).diag = s.diag := rfl
@[simp] theorem State.loadOpen_setPc (s : State) (t : Nat) : (s.setPc t).loadOpen = s.loadOpen := rfl
@[simp] theorem State.readV_setPc (s : State) (t : Nat) (q : Nibble) : (s.setPc t).readV q = s.readV q := rfl
@[simp] theorem State.readByte_setPc (s : State) (t : Nat) (q : Nat) : (s.setPc t).readByte q = s.readByte q := rfl

/-! ### advance -/

@[simp] theorem State.V_advance (s : State) : s.advance.V = s.V := rfl
@[simp] theorem State.I_advance (s : State) : s.advance.I = s.I := rfl
@[simp] theorem State.pc_advance (s : State) : s.advance.pc = BitVec.ofNat 16 ((s.pc.toNat + 2) % Config.memSize) := rfl
@[simp] theorem State.stack_advance (s : State) : s.advance.stack = s.stack := rfl
@[simp] theorem State.SP_advance (s : State) : s.advance.SP = s.SP := rfl
@[simp] theorem State.DT_advance (s : State) : s.advance.DT = s.DT := rfl
@[simp] theorem State.ST_advance (s : State) : s.advance.ST = s.ST := rfl
@[simp] theorem State.mem_advance (s : State) : s.advance.mem = s.mem := rfl
@[simp] theorem State.px_advance (s : State) : s.advance.px = s.px := rfl
@[simp] theorem State.renderNeeded_advance (s : State) : s.advance.renderNeeded = s.renderNeeded := rfl
@[simp] theorem State.run_advance (s : State) : s.advance.run = s.run := rfl
@[simp] theorem State.fault_advance (s : State) : s.advance.fault = s.fault := rfl
@[simp] theorem State.waitX_advance (s : State) : s.advance.waitX = s.waitX := rfl
@[simp] theorem State.keysPrev_advance (s : State) : s.advance.keysPrev = s.keysPrev := rfl
@[simp] theorem State.params_advance (s : State) : s.advance.params = s.params := rfl
@[simp] theorem State.keys_advance (s : State) : s.advance.keys = s.keys := rfl
@[simp] theorem State.rnd_advance (s : State) : s.advance.rnd = s.rnd := rfl
@[simp] theorem State.pending_advance (s : State) : s.advance.pending = s.pending := rfl
@[simp] theorem State.draws_advance (s : State) : s.advance.draws = s.draws := rfl
@[simp] theorem State.diag_advance (s : State) : s.advance.diag = s.diag := rfl
@[simp] theorem State.loadOpen_advance (s : State) : s.advance.loadOpen = s.loadOpen := rfl
@[simp] theorem State.readV_advance (s : State) (q : Nibble) : s.advance.readV q = s.readV q := rfl
@[simp] theorem State.readByte_advance (s : State) (q : Nat) : s.advance.readByte q = s.readByte q := rfl

/-! ### skip -/

@[simp] theorem State.V_skip (s : State) : s.skip.V = s.V := rfl
@[simp] theorem State.I_skip (s : State) : s.skip.I = s.I := rfl
@[simp] theorem State.pc_skip (s : State) : s.skip.pc = BitVec.ofNat 16 ((s.pc.toNat + 4) % Config.memSize) := rfl
@[simp] theorem State.stack_skip (s : State) : s.skip.stack = s.stack := rfl
@[simp] theorem State.SP_skip (s : State) : s.skip.SP = s.SP := rfl
@[simp] theorem State.DT_skip (s : State) : s.skip.DT = s.DT := rfl
@[simp] theorem State.ST_skip (s : State) : s.skip.ST = s.ST := rfl
@[simp] theorem State.mem_skip (s : State) : s.skip.mem = s.mem := rfl
@[simp] theorem State.px_skip (s : State) : s.skip.px = s.px := rfl
@[simp] theorem State.renderNeeded_skip (s : State) : s.skip.renderNeeded = s.renderNeeded := rfl
@[simp] theorem State.run_skip (s : State) : s.skip.run = s.run := rfl
@[simp] theorem State.fault_skip (s : State) : s.skip.fault = s.fault := rfl
@[simp] theorem State.waitX_skip (s : State) : s.skip.waitX = s.waitX := rfl
@[simp] theorem State.keysPrev_skip (s : State) : s.skip.keysPrev = s.keysPrev := rfl
@[simp] theorem State.params_skip (s : State) : s.skip.params = s.params := rfl
@[simp] theorem State.keys_skip (s : State) : s.skip.keys = s.keys := rfl
@[simp] theorem State.rnd_skip (s : State) : s.skip.rnd = s.rnd := rfl
@[simp] theorem State.pending_skip (s : State) : s.skip.pending = s.pending := rfl
@[simp] theorem State.draws_skip (s : State) : s.skip.draws = s.draws := rfl
@[simp] theorem State.diag_skip (s : State) : s.skip.diag = s.diag := rfl
@[simp] theorem State.loadOpen_skip (s : State) : s.skip.loadOpen = s.loadOpen := rfl
@[simp] theorem State.readV_skip (s : State) (q : Nibble) : s.skip.readV q = s.readV q := rfl
@[simp] theorem State.readByte_skip (s : State) (q : Nat) : s.skip.readByte q = s.readByte q := rfl

/-! ### skipIf -/

@[simp] theorem State.V_skipIf (s : State) (c : Bool) : (s.skipIf c).V = s.V := by cases c <;> rfl
@[simp] theorem State.I_skipIf (s : State) (c : Bool) : (s.skipIf c).I = s.I := by cases c <;> rfl
@[simp] theorem State.pc_skipIf (s : State) (c : Bool) : (s.skipIf c).pc = BitVec.ofNat 16 ((s.pc.toNat + (if c then 4 else 2)) % Config.memSize) := by cases c <;> rfl
@[simp] theorem State.stack_skipIf (s : State) (c : Bool) : (s.skipIf c).stack = s.stack := by cases c <;> rfl
@[simp] theorem State.SP_skipIf (s : State) (c : Bool) : (s.skipIf c).SP = s.SP := by cases c <;> rfl
@[simp] theorem State.DT_skipIf (s : State) (c : Bool) : (s.skipIf c).DT = s.DT := by cases c <;> rfl
@[simp] theorem State.ST_skipIf (s : State) (c : Bool) : (s.skipIf c).ST = s.ST := by cases c <;> rfl
@[simp] theorem State.mem_skipIf (s : State) (c : Bool) : (s.skipIf c).mem = s.mem := by cases c <;> rfl
@[simp] theorem State.px_skipIf (s : State) (c : Bool) : (s.skipIf c).px = s.px := by cases c <;> rfl
@[simp] theorem State.renderNeeded_skipIf (s : State) (c : Bool) : (s.skipIf c).renderNeeded = s.renderNeeded := by cases c <;> rfl
@[simp] theorem State.run_skipIf (s : State) (c : Bool) : (s.skipIf c).run = s.run := by cases c <;> rfl
@[simp] theorem State.fault_skipIf (s : State) (c : Bool) : (s.skipIf c).fault = s.fault := by cases c <;> rfl
@[simp] theorem State.waitX_skipIf (s : State) (c : Bool) : (s.skipIf c).waitX = s.waitX := by cases c <;> rfl
@[simp] theorem State.keysPrev_skipIf (s : State) (c : Bool) : (s.skipIf c).keysPrev = s.keysPrev := by cases c <;> rfl
@[simp] theorem State.params_skipIf (s : State) (c : Bool) : (s.skipIf c).params = s.params := by cases c <;> rfl
@[simp] theorem State.keys_skipIf (s : State) (c : Bool) : (s.skipIf c).keys = s.keys := by cases c <;> rfl
@[simp] theorem State.rnd_skipIf (s : State) (c : Bool) : (s.skipIf c).rnd = s.rnd := by cases c <;> rfl
@[simp] theorem State.pending_skipIf (s : State) (c : Bool) : (s.skipIf c).pending = s.pending := by cases c <;> rfl
@[simp] theorem State.draws_skipIf (s : State) (c : Bool) : (s.skipIf c).draws = s.draws := by cases c <;> rfl
@[simp] theorem State.diag_skipIf (s : State) (c : Bool) : (s.skipIf c).diag = s.diag := by cases c <;> rfl
@[simp] theorem State.loadOpen_skipIf (s : State) (c : Bool) : (s.skipIf c).loadOpen = s.loadOpen := by cases c <;> rfl
@[simp] theorem State.readV_skipIf (s : State) (c : Bool) (q : Nibble) : (s.skipIf c).readV q = s.readV q := by cases c <;> rfl
@[simp] theorem State.readByte_skipIf (s : State) (c : Bool) (q : Nat) : (s.skipIf c).readByte q = s.readByte q := by cases c <;> rfl

/-! ### setI -/

@[simp] theorem State.V_setI (s : State) (v : Nat) : (s.setI v).V = s.V := rfl
@[simp] theorem State.I_setI (s : State) (v : Nat) : (s.setI v).I = BitVec.ofNat 16 (v % Config.memSize) := rfl
@[simp] theorem State.pc_setI (s : State) (v : Nat) : (s.setI v).pc = s.pc := rfl
@[simp] theorem State.stack_setI (s : State) (v : Nat) : (s.setI v).stack = s.stack := rfl
@[simp] theorem State.SP_setI (s : State) (v : Nat) : (s.setI v).SP = s.SP := rfl
@[simp] theorem State.DT_setI (s : State) (v : Nat) : (s.setI v).DT = s.DT := rfl
@[simp] theorem State.ST_setI (s : State) (v : Nat) : (s.setI v).ST = s.ST := rfl
@[simp] theorem State.mem_setI (s : State) (v : Nat) : (s.setI v).mem = s.mem := rfl
@[simp] theorem State.px_setI (s : State) (v : Nat) : (s.setI v).px = s.px := rfl
@[simp] theorem State.renderNeeded_setI (s : State) (v : Nat) : (s.setI v).renderNeeded = s.renderNeeded := rfl
@[simp] theorem State.run_setI (s : State) (v : Nat) : (s.setI v).run = s.run := rfl
@[simp] theorem State.fault_setI (s : State) (v : Nat) : (s.setI v).fault = s.fault := rfl
@[simp] theorem State.waitX_setI (s : State) (v : Nat) : (s.setI v).waitX = s.waitX := rfl
@[simp] theorem State.keysPrev_setI (s : State) (v : Nat) : (s.setI v).keysPrev = s.keysPrev := rfl
@[simp] theorem State.params_setI (s : State) (v : Nat) : (s.setI v).params = s.params := rfl
@[simp] theorem State.keys_setI (s : State) (v : Nat) : (s.setI v).keys = s.keys := rfl
@[simp] theorem State.rnd_setI (s : State) (v : Nat) : (s.setI v).rnd = s.rnd := rfl
@[simp] theorem State.pending_setI (s : State) (v : Nat) : (s.setI v).pending = s.pending := rfl
@[simp] theorem State.draws_setI (s : State) (v : Nat) : (s.setI v).draws = s.draws := rfl
@[simp] theorem State.diag_setI (s : State) (v : Nat) : (s.setI v).diag = s.diag := rfl
@[simp] theorem State.loadOpen_setI (s : State) (v : Nat) : (s.setI v).loadOpen = s.loadOpen := rfl
@[simp] theorem State.readV_setI (s : State) (v : Nat) (q : Nibble) : (s.setI v).readV q = s.readV q := rfl
@[simp] theorem State.readByte_setI (s : State) (v : Nat) (q : Nat) : (s.setI v).readByte q = s.readByte q := rfl

/-! ### writeV -/

@[simp] theorem State.V_writeV (s : State) (r : Nibble) (v : Byte) : (s.writeV r v).V = s.V.set r.toNat v r.isLt := rfl
@[simp] theorem State.I_writeV (s : State) (r : Nibble) (v : Byte) : (s.writeV r v).I = s.I := rfl
@[simp] theorem State.pc_writeV (s : State) (r : Nibble) (v : Byte) : (s.writeV r v).pc = s.pc := rfl
@[simp] theorem State.stack_writeV (s : State) (r : Nibble) (v : Byte) : (s.writeV r v).stack = s.stack := rfl
@[simp] theorem State.SP_writeV (s : State) (r : Nibble) (v : Byte) : (s.writeV r v).SP = s.SP := rfl
@[simp] theorem State.DT_writeV (s : State) (r : Nibble) (v : Byte) : (s.writeV r v).DT = s.DT := rfl
@[simp] theorem State.ST_writeV (s : State) (r : Nibble) (v : Byte) : (s.writeV r v).ST = s.ST := rfl
@[simp] theorem State.mem_writeV (s : State) (r : Nibble) (v : Byte) : (s.writeV r v).mem = s.mem := rfl
@[simp] theorem State.px_writeV (s : State) (r : Nibble) (v : Byte) : (s.writeV r v).px = s.px := rfl
@[simp] theorem State.renderNeeded_writeV (s : State) (r : Nibble) (v : Byte) : (s.writeV r v).renderNeeded = s.renderNeeded := rfl
@[simp] theorem State.run_writeV (s : State) (r : Nibble) (v : Byte) : (s.writeV r v).run = s.run := rfl
@[simp] theorem State.fault_writeV (s : State) (r : Nibble) (v : Byte) : (s.writeV r v).fault = s.fault := rfl
@[simp] theorem State.waitX_writeV (s : State) (r : Nibble) (v : Byte) : (s.writeV r v).waitX = s.waitX := rfl
@[simp] theorem State.keysPrev_writeV (s : State) (r : Nibble) (v : Byte) : (s.writeV r v).keysPrev = s.keysPrev := rfl
@[simp] theorem State.params_writeV (s : State) (r : Nibble) (v : Byte) : (s.writeV r v).params = s.params := rfl
@[simp] theorem State.keys_writeV (s : State) (r : Nibble) (v : Byte) : (s.writeV r v).keys = s.keys := rfl
@[simp] theorem State.rnd_writeV (s : State) (r : Nibble) (v : Byte) : (s.writeV r v).rnd = s.rnd := rfl
@[simp] theorem State.pending_writeV (s : State) (r : Nibble) (v : Byte) : (s.writeV r v).pending = s.pending := rfl
@[simp] theorem State.draws_writeV (s : State) (r : Nibble) (v : Byte) : (s.writeV r v).draws = s.draws := rfl
@[simp] theorem State.diag_writeV (s : State) (r : Nibble) (v : Byte) : (s.writeV r v).diag = s.diag := rfl
@[simp] theorem State.loadOpen_writeV (s : State) (r : Nibble) (v : Byte) : (s.writeV r v).loadOpen = s.loadOpen := rfl
@[simp] theorem State.readByte_writeV (s : State) (r : Nibble) (v : Byte) (q : Nat) : (s.writeV r v).readByte q = s.readByte q := rfl

/-! ### writeFlag -/

@[simp] theorem State.V_writeFlag (s : State) (b : Bool) : (s.writeFlag b).V = (s.writeV 15 (flagByte b)).V := rfl
@[simp] theorem State.I_writeFlag (s : State) (b : Bool) : (s.writeFlag b).I = s.I := rfl
@[simp] theorem State.pc_writeFlag (s : State) (b : Bool) : (s.writeFlag b).pc = s.pc := rfl
@[simp] theorem State.stack_writeFlag (s : State) (b : Bool) : (s.writeFlag b).stack = s.stack := rfl
@[simp] theorem State.SP_writeFlag (s : State) (b : Bool) : (s.writeFlag b).SP = s.SP := rfl
@[simp] theorem State.DT_writeFlag (s : State) (b : Bool) : (s.writeFlag b).DT = s.DT := rfl
@[simp] theorem State.ST_writeFlag (s : State) (b : Bool) : (s.writeFlag b).ST = s.ST := rfl
@[simp] theorem State.mem_writeFlag (s : State) (b : Bool) : (s.writeFlag b).mem = s.mem := rfl
@[simp] theorem State.px_writeFlag (s : State) (b : Bool) : (s.writeFlag b).px = s.px := rfl
@[simp] theorem State.renderNeeded_writeFlag (s : State) (b : Bool) : (s.writeFlag b).renderNeeded = s.renderNeeded := rfl
@[simp] theorem State.run_writeFlag (s : State) (b : Bool) : (s.writeFlag b).run = s.run := rfl
@[simp] theorem State.fault_writeFlag (s : State) (b : Bool) : (s.writeFlag b).fault = s.fault := rfl
@[simp] theorem State.waitX_writeFlag (s : State) (b : Bool) : (s.writeFlag b).waitX = s.waitX := rfl
@[simp] theorem State.keysPrev_writeFlag (s : State) (b : Bool) : (s.writeFlag b).keysPrev = s.keysPrev := rfl
@[simp] theorem State.params_writeFlag (s : State) (b : Bool) : (s.writeFlag b).params = s.params := rfl
@[simp] theorem State.keys_writeFlag (s : State) (b : Bool) : (s.writeFlag b).keys = s.keys := rfl
@[simp] theorem State.rnd_writeFlag (s : State) (b : Bool) : (s.writeFlag b).rnd = s.rnd := rfl
@[simp] theorem State.pending_writeFlag (s : State) (b : Bool) : (s.writeFlag b).pending = s.pending := rfl
@[simp] theorem State.draws_writeFlag (s : State) (b : Bool) : (s.writeFlag b).draws = s.draws := rfl
@[simp] theorem State.diag_writeFlag (s : State) (b : Bool) : (s.writeFlag b).diag = s.diag := rfl
@[simp] theorem State.loadOpen_writeFlag (s : State) (b : Bool) : (s.writeFlag b).loadOpen = s.loadOpen := rfl
@[simp] theorem State.readByte_writeFlag (s : State) (b : Bool) (q : Nat) : (s.writeFlag b).readByte q = s.readByte q := rfl

/-! ### writeResult -/

@[simp] theorem State.V_writeResult (s : State) (x : Nibble) (v : Byte) : (s.writeResult x v).V = (s.writeV x v).V := rfl
@[simp] theorem State.I_writeResult (s : State) (x : Nibble) (v : Byte) : (s.writeResult x v).I = s.I := rfl
@[simp] theorem State.pc_writeResult (s : State) (x : Nibble) (v : Byte) : (s.writeResult x v).pc = s.advance.pc := rfl
@[simp] theorem State.stack_writeResult (s : State) (x : Nibble) (v : Byte) : (s.writeResult x v).stack = s.stack := rfl
@[simp] theorem State.SP_writeResult (s : State) (x : Nibble) (v : Byte) : (s.writeResult x v).SP = s.SP := rfl
@[simp] theorem State.DT_writeResult (s : State) (x : Nibble) (v : Byte) : (s.writeResult x v).DT = s.DT := rfl
@[simp] theorem State.ST_writeResult (s : State) (x : Nibble) (v : Byte) : (s.writeResult x v).ST = s.ST := rfl
@[simp] theorem State.mem_writeResult (s : State) (x : Nibble) (v : Byte) : (s.writeResult x v).mem = s.mem := rfl
@[simp] theorem State.px_writeResult (s : State) (x : Nibble) (v : Byte) : (s.writeResult x v).px = s.px := rfl
@[simp] theorem State.renderNeeded_writeResult (s : State) (x : Nibble) (v : Byte) : (s.writeResult x v).renderNeeded = s.renderNeeded := rfl
@[simp] theorem State.run_writeResult (s : State) (x : Nibble) (v : Byte) : (s.writeResult x v).run = s.run := rfl
@[simp] theorem State.fault_writeResult (s : State) (x : Nibble) (v : Byte) : (s.writeResult x v).fault = s.fault := rfl
@[simp] theorem State.waitX_writeResult (s : State) (x : Nibble) (v : Byte) : (s.writeResult x v).waitX = s.waitX := rfl
@[simp] theorem State.keysPrev_writeResult (s : State) (x : Nibble) (v : Byte) : (s.writeResult x v).keysPrev = s.keysPrev := rfl
@[simp] theorem State.params_writeResult (s : State) (x : Nibble) (v : Byte) : (s.writeResult x v).params = s.params := rfl
@[simp] theorem State.keys_writeResult (s : State) (x : Nibble) (v : Byte) : (s.writeResult x v).keys = s.keys := rfl
@[simp] theorem State.rnd_writeResult (s : State) (x : Nibble) (v : Byte) : (s.writeResult x v).rnd = s.rnd := rfl
@[simp] theorem State.pending_writeResult (s : State) (x : Nibble) (v : Byte) : (s.writeResult x v).pending = s.pending := rfl
@[simp] theorem State.draws_writeResult (s : State) (x : Nibble) (v : Byte) : (s.writeResult x v).draws = s.draws := rfl
@[simp] theorem State.diag_writeResult (s : State) (x : Nibble) (v : Byte) : (s.writeResult x v).diag = s.diag := rfl
@[simp] theorem State.loadOpen_writeResult (s : State) (x : Nibble) (v : Byte) : (s.writeResult x v).loadOpen = s.loadOpen := rfl
@[simp] theorem State.readByte_writeResult (s : State) (x : Nibble) (v : Byte) (q : Nat) : (s.writeResult x v).readByte q = s.readByte q := rfl

/-! ### writeResultFlag -/

@[simp] theorem State.V_writeResultFlag (s : State) (x : Nibble) (v : Byte) (b : Bool) : (s.writeResultFlag x v b).V = ((s.writeV x v).writeFlag b).V := rfl
@[simp] theorem State.I_writeResultFlag (s : State) (x : Nibble) (v : Byte) (b : Bool) : (s.writeResultFlag x v b).I = s.I := rfl
@[simp] theorem State.pc_writeResultFlag (s : State) (x : Nibble) (v : Byte) (b : Bool) : (s.writeResultFlag x v b).pc = s.advance.pc := rfl
@[simp] theorem State.stack_writeResultFlag (s : State) (x : Nibble) (v : Byte) (b : Bool) : (s.writeResultFlag x v b).stack = s.stack := rfl
@[simp] theorem State.SP_writeResultFlag (s : State) (x : Nibble) (v : Byte) (b : Bool) : (s.writeResultFlag x v b).SP = s.SP := rfl
@[simp] theorem State.DT_writeResultFlag (s : State) (x : Nibble) (v : Byte) (b : Bool) : (s.writeResultFlag x v b).DT = s.DT := rfl
@[simp] theorem State.ST_writeResultFlag (s : State) (x : Nibble) (v : Byte) (b : Bool) : (s.writeResultFlag x v b).ST = s.ST := rfl
@[simp] theorem State.mem_writeResultFlag (s : State) (x : Nibble) (v : Byte) (b : Bool) : (s.writeResultFlag x v b).mem = s.mem := rfl
@[simp] theorem State.px_writeResultFlag (s : State) (x : Nibble) (v : Byte) (b : Bool) : (s.writeResultFlag x v b).px = s.px := rfl
@[simp] theorem State.renderNeeded_writeResultFlag (s : State) (x : Nibble) (v : Byte) (b : Bool) : (s.writeResultFlag x v b).renderNeeded = s.renderNeeded := rfl
@[simp] theorem State.run_writeResultFlag (s : State) (x : Nibble) (v : Byte) (b : Bool) : (s.writeResultFlag x v b).run = s.run := rfl
@[simp] theorem State.fault_writeResultFlag (s : State) (x : Nibble) (v : Byte) (b : Bool) : (s.writeResultFlag x v b).fault = s.fault := rfl
@[simp] theorem State.waitX_writeResultFlag (s : State) (x : Nibble) (v : Byte) (b : Bool) : (s.writeResultFlag x v b).waitX = s.waitX := rfl
@[simp] theorem State.keysPrev_writeResultFlag (s : State) (x : Nibble) (v : Byte) (b : Bool) : (s.writeResultFlag x v b).keysPrev = s.keysPrev := rfl
@[simp] theorem State.params_writeResultFlag (s : State) (x : Nibble) (v : Byte) (b : Bool) : (s.writeResultFlag x v b).params = s.params := rfl
@[simp] theorem State.keys_writeResultFlag (s : State) (x : Nibble) (v : Byte) (b : Bool) : (s.writeResultFlag x v b).keys = s.keys := rfl
@[simp] theorem State.rnd_writeResultFlag (s : State) (x : Nibble) (v : Byte) (b : Bool) : (s.writeResultFlag x v b).rnd = s.rnd := rfl
@[simp] theorem State.pending_writeResultFlag (s : State) (x : Nibble) (v : Byte) (b : Bool) : (s.writeResultFlag x v b).pending = s.pending := rfl
@[simp] theorem State.draws_writeResultFlag (s : State) (x : Nibble) (v : Byte) (b : Bool) : (s.writeResultFlag x v b).draws = s.draws := rfl
@[simp] theorem State.diag_writeResultFlag (s : State) (x : Nibble) (v : Byte) (b : Bool) : (s.writeResultFlag x v b).diag = s.diag := rfl
@[simp] theorem State.loadOpen_writeResultFlag (s : State) (x : Nibble) (v : Byte) (b : Bool) : (s.writeResultFlag x v b).loadOpen = s.loadOpen := rfl
@[simp] theorem State.readByte_writeResultFlag (s : State) (x : Nibble) (v : Byte) (b : Bool) (q : Nat) : (s.writeResultFlag x v b).readByte q = s.readByte q := rfl

/-! ### writeByte -/

@[simp] theorem State.V_writeByte (s : State) (a : Nat) (v : Byte) : (s.writeByte a v).V = s.V := rfl
@[simp] theorem State.I_writeByte (s : State) (a : Nat) (v : Byte) : (s.writeByte a v).I = s.I := rfl
@[simp] theorem State.pc_writeByte (s : State) (a : Nat) (v : Byte) : (s.writeByte a v).pc = s.pc := rfl
@[simp] theorem State.stack_writeByte (s : State) (a : Nat) (v : Byte) : (s.writeByte a v).stack = s.stack := rfl
@[simp] theorem State.SP_writeByte (s : State) (a : Nat) (v : Byte) : (s.writeByte a v).SP = s.SP := rfl
@[simp] theorem State.DT_writeByte (s : State) (a : Nat) (v : Byte) : (s.writeByte a v).DT = s.DT := rfl
@[simp] theorem State.ST_writeByte (s : State) (a : Nat) (v : Byte) : (s.writeByte a v).ST = s.ST := rfl
@[simp] theorem State.mem_writeByte (s : State) (a : Nat) (v : Byte) : (s.writeByte a v).mem = s.mem.write s.params.glyphRom a v := rfl
@[simp] theorem State.px_writeByte (s : State) (a : Nat) (v : Byte) : (s.writeByte a v).px = s.px := rfl
@[simp] theorem State.renderNeeded_writeByte (s : State) (a : Nat) (v : Byte) : (s.writeByte a v).renderNeeded = s.renderNeeded := rfl
@[simp] theorem State.run_writeByte (s : State) (a : Nat) (v : Byte) : (s.writeByte a v).run = s.run := rfl
@[simp] theorem State.fault_writeByte (s : State) (a : Nat) (v : Byte) : (s.writeByte a v).fault = s.fault := rfl
@[simp] theorem State.waitX_writeByte (s : State) (a : Nat) (v : Byte) : (s.writeByte a v).waitX = s.waitX := rfl
@[simp] theorem State.keysPrev_writeByte (s : State) (a : Nat) (v : Byte) : (s.writeByte a v).keysPrev = s.keysPrev := rfl
@[simp] theorem State.params_writeByte (s : State) (a : Nat) (v : Byte) : (s.writeByte a v).params = s.params := rfl
@[simp] theorem State.keys_writeByte (s : State) (a : Nat) (v : Byte) : (s.writeByte a v).keys = s.keys := rfl
@[simp] theorem State.rnd_writeByte (s : State) (a : Nat) (v : Byte) : (s.writeByte a v).rnd = s.rnd := rfl
@[simp] theorem State.pending_writeByte (s : State) (a : Nat) (v : Byte) : (s.writeByte a v).pending = s.pending := rfl
@[simp] theorem State.draws_writeByte (s : State) (a : Nat) (v : Byte) : (s.writeByte a v).draws = s.draws := rfl
@[simp] theorem State.diag_writeByte (s : State) (a : Nat) (v : Byte) : (s.writeByte a v).diag = s.diag := rfl
@[simp] theorem State.loadOpen_writeByte (s : State) (a : Nat) (v : Byte) : (s.writeByte a v).loadOpen = s.loadOpen := rfl
@[simp] theorem State.readV_writeByte (s : State) (a : Nat) (v : Byte) (q : Nibble) : (s.writeByte a v).readV q = s.readV q := rfl

/-! ### writeBytes -/

@[simp] theorem State.V_writeBytes (s : State) (a : Nat) (bs : List Byte) : (s.writeBytes a bs).V = s.V := rfl
@[simp] theorem State.I_writeBytes (s : State) (a : Nat) (bs : List Byte) : (s.writeBytes a bs).I = s.I := rfl
@[simp] theorem State.pc_writeBytes (s : State) (a : Nat) (bs : List Byte) : (s.writeBytes a bs).pc = s.pc := rfl
@[simp] theorem State.stack_writeBytes (s : State) (a : Nat) (bs : List Byte) : (s.writeBytes a bs).stack = s.stack := rfl
@[simp] theorem State.SP_writeBytes (s : State) (a : Nat) (bs : List Byte) : (s.writeBytes a bs).SP = s.SP := rfl
@[simp] theorem State.DT_writeBytes (s : State) (a : Nat) (bs : List Byte) : (s.writeBytes a bs).DT = s.DT := rfl
@[simp] theorem State.ST_writeBytes (s : State) (a : Nat) (bs : List Byte) : (s.writeBytes a bs).ST = s.ST := rfl
@[simp] theorem State.mem_writeBytes (s : State) (a : Nat) (bs : List Byte) : (s.writeBytes a bs).mem = s.mem.writeBytes s.params.glyphRom a bs := rfl
@[simp] theorem State.px_writeBytes (s : State) (a : Nat) (bs : List Byte) : (s.writeBytes a bs).px = s.px := rfl
@[simp] theorem State.renderNeeded_writeBytes (s : State) (a : Nat) (bs : List Byte) : (s.writeBytes a bs).renderNeeded = s.renderNeeded := rfl
@[simp] theorem State.run_writeBytes (s : State) (a : Nat) (bs : List Byte) : (s.writeBytes a bs).run = s.run := rfl
@[simp] theorem State.fault_writeBytes (s : State) (a : Nat) (bs : List Byte) : (s.writeBytes a bs).fault = s.fault := rfl
@[simp] theorem State.waitX_writeBytes (s : State) (a : Nat) (bs : List Byte) : (s.writeBytes a bs).waitX = s.waitX := rfl
@[simp] theorem State.keysPrev_writeBytes (s : State) (a : Nat) (bs : List Byte) : (s.writeBytes a bs).keysPrev = s.keysPrev := rfl
@[simp] theorem State.params_writeBytes (s : State) (a : Nat) (bs : List Byte) : (s.writeBytes a bs).params = s.params := rfl
@[simp] theorem State.keys_writeBytes (s : State) (a : Nat) (bs : List Byte) : (s.writeBytes a bs).keys = s.keys := rfl
@[simp] theorem State.rnd_writeBytes (s : State) (a : Nat) (bs : List Byte) : (s.writeBytes a bs).rnd = s.rnd := rfl
@[simp] theorem State.pending_writeBytes (s : State) (a : Nat) (bs : List Byte) : (s.writeBytes a bs).pending = s.pending := rfl
@[simp] theorem State.draws_writeBytes (s : State) (a : Nat) (bs : List Byte) : (s.writeBytes a bs).draws = s.draws := rfl
@[simp] theorem State.diag_writeBytes (s : State) (a : Nat) (bs : List Byte) : (s.writeBytes a bs).diag = s.diag := rfl
@[simp] theorem State.loadOpen_writeBytes (s : State) (a : Nat) (bs : List Byte) : (s.writeBytes a bs).loadOpen = s.loadOpen := rfl
@[simp] theorem State.readV_writeBytes (s : State) (a : Nat) (bs : List Byte) (q : Nibble) : (s.writeBytes a bs).readV q = s.readV q := rfl

/-! ### raise -/

@[simp] theorem State.V_raise (s : State) (f : Fatal) : (s.raise f).V = s.V := rfl
@[simp] theorem State.I_raise (s : State) (f : Fatal) : (s.raise f).I = s.I := rfl
@[simp] theorem State.pc_raise (s : State) (f : Fatal) : (s.raise f).pc = s.pc := rfl
@[simp] theorem State.stack_raise (s : State) (f : Fatal) : (s.raise f).stack = s.stack := rfl
@[simp] theorem State.SP_raise (s : State) (f : Fatal) : (s.raise f).SP = s.SP := rfl
@[simp] theorem State.DT_raise (s : State) (f : Fatal) : (s.raise f).DT = s.DT := rfl
@[simp] theorem State.ST_raise (s : State) (f : Fatal) : (s.raise f).ST = s.ST := rfl
@[simp] theorem State.mem_raise (s : State) (f : Fatal) : (s.raise f).mem = s.mem := rfl
@[simp] theorem State.px_raise (s : State) (f : Fatal) : (s.raise f).px = s.px := rfl
@[simp] theorem State.renderNeeded_raise (s : State) (f : Fatal) : (s.raise f).renderNeeded = s.renderNeeded := rfl
@[simp] theorem State.run_raise (s : State) (f : Fatal) : (s.raise f).run = .halt := rfl
@[simp] theorem State.fault_raise (s : State) (f : Fatal) : (s.raise f).fault = some f := rfl
@[simp] theorem State.waitX_raise (s : State) (f : Fatal) : (s.raise f).waitX = s.waitX := rfl
@[simp] theorem State.keysPrev_raise (s : State) (f : Fatal) : (s.raise f).keysPrev = s.keysPrev := rfl
@[simp] theorem State.params_raise (s : State) (f : Fatal) : (s.raise f).params = s.params := rfl
@[simp] theorem State.keys_raise (s : State) (f : Fatal) : (s.raise f).keys = s.keys := rfl
@[simp] theorem State.rnd_raise (s : State) (f : Fatal) : (s.raise f).rnd = s.rnd := rfl
@[simp] theorem State.pending_raise (s : State) (f : Fatal) : (s.raise f).pending = s.pending := rfl
@[simp] theorem State.draws_raise (s : State) (f : Fatal) : (s.raise f).draws = s.draws := rfl
@[simp] theorem State.diag_raise (s : State) (f : Fatal) : (s.raise f).diag = s.diag := rfl
@[simp] theorem State.loadOpen_raise (s : State) (f : Fatal) : (s.raise f).loadOpen = s.loadOpen := rfl
@[simp] theorem State.readV_raise (s : State) (f : Fatal) (q : Nibble) : (s.raise f).readV q = s.readV q := rfl
@[simp] theorem State.readByte_raise (s : State) (f : Fatal) (q : Nat) : (s.raise f).readByte q = s.readByte q := rfl

/-! ### emitDiag -/

@[simp] theorem State.V_emitDiag (s : State) (w : Word) : (s.emitDiag w).V = s.V := rfl
@[simp] theorem State.I_emitDiag (s : State) (w : Word) : (s.emitDiag w).I = s.I := rfl
@[simp] theorem State.pc_emitDiag (s : State) (w : Word) : (s.emitDiag w).pc = s.pc := rfl
@[simp] theorem State.stack_emitDiag (s : State) (w : Word) : (s.emitDiag w).stack = s.stack := rfl
@[simp] theorem State.SP_emitDiag (s : State) (w : Word) : (s.emitDiag w).SP = s.SP := rfl
@[simp] theorem State.DT_emitDiag (s : State) (w : Word) : (s.emitDiag w).DT = s.DT := rfl
@[simp] theorem State.ST_emitDiag (s : State) (w : Word) : (s.emitDiag w).ST = s.ST := rfl
@[simp] theorem State.mem_emitDiag (s : State) (w : Word) : (s.emitDiag w).mem = s.mem := rfl
@[simp] theorem State.px_emitDiag (s : State) (w : Word) : (s.emitDiag w).px = s.px := rfl
@[simp] theorem State.renderNeeded_emitDiag (s : State) (w : Word) : (s.emitDiag w).renderNeeded = s.renderNeeded := rfl
@[simp] theorem State.run_emitDiag (s : State) (w : Word) : (s.emitDiag w).run = s.run := rfl
@[simp] theorem State.fault_emitDiag (s : State) (w : Word) : (s.emitDiag w).fault = s.fault := rfl
@[simp] theorem State.waitX_emitDiag (s : State) (w : Word) : (s.emitDiag w).waitX = s.waitX := rfl
@[simp] theorem State.keysPrev_emitDiag (s : State) (w : Word) : (s.emitDiag w).keysPrev = s.keysPrev := rfl
@[simp] theorem State.params_emitDiag (s : State) (w : Word) : (s.emitDiag w).params = s.params := rfl
@[simp] theorem State.keys_emitDiag (s : State) (w : Word) : (s.emitDiag w).keys = s.keys := rfl
@[simp] theorem State.rnd_emitDiag (s : State) (w : Word) : (s.emitDiag w).rnd = s.rnd := rfl
@[simp] theorem State.pending_emitDiag (s : State) (w : Word) : (s.emitDiag w).pending = s.pending := rfl
@[simp] theorem State.draws_emitDiag (s : State) (w : Word) : (s.emitDiag w).draws = s.draws := rfl
@[simp] theorem State.diag_emitDiag (s : State) (w : Word) : (s.emitDiag w).diag = s.diag ++ [⟨s.pc.setWidth 12, w⟩] := rfl
@[simp] theorem State.loadOpen_emitDiag (s : State) (w : Word) : (s.emitDiag w).loadOpen = s.loadOpen := rfl
@[simp] theorem State.readV_emitDiag (s : State) (w : Word) (q : Nibble) : (s.emitDiag w).readV q = s.readV q := rfl
@[simp] theorem State.readByte_emitDiag (s : State) (w : Word) (q : Nat) : (s.emitDiag w).readByte q = s.readByte q := rfl

/-! ### unknownWord -/

@[simp] theorem State.V_unknownWord (s : State) (w : Word) : (s.unknownWord w).V = s.V := rfl
@[simp] theorem State.I_unknownWord (s : State) (w : Word) : (s.unknownWord w).I = s.I := rfl
@[simp] theorem State.pc_unknownWord (s : State) (w : Word) : (s.unknownWord w).pc = s.advance.pc := rfl
@[simp] theorem State.stack_unknownWord (s : State) (w : Word) : (s.unknownWord w).stack = s.stack := rfl
@[simp] theorem State.SP_unknownWord (s : State) (w : Word) : (s.unknownWord w).SP = s.SP := rfl
@[simp] theorem State.DT_unknownWord (s : State) (w : Word) : (s.unknownWord w).DT = s.DT := rfl
@[simp] theorem State.ST_unknownWord (s : State) (w : Word) : (s.unknownWord w).ST = s.ST := rfl
@[simp] theorem State.mem_unknownWord (s : State) (w : Word) : (s.unknownWord w).mem = s.mem := rfl
@[simp] theorem State.px_unknownWord (s : State) (w : Word) : (s.unknownWord w).px = s.px := rfl
@[simp] theorem State.renderNeeded_unknownWord (s : State) (w : Word) : (s.unknownWord w).renderNeeded = s.renderNeeded := rfl
@[simp] theorem State.run_unknownWord (s : State) (w : Word) : (s.unknownWord w).run = s.run := rfl
@[simp] theorem State.fault_unknownWord (s : State) (w : Word) : (s.unknownWord w).fault = s.fault := rfl
@[simp] theorem State.waitX_unknownWord (s : State) (w : Word) : (s.unknownWord w).waitX = s.waitX := rfl
@[simp] theorem State.keysPrev_unknownWord (s : State) (w : Word) : (s.unknownWord w).keysPrev = s.keysPrev := rfl
@[simp] theorem State.params_unknownWord (s : State) (w : Word) : (s.unknownWord w).params = s.params := rfl
@[simp] theorem State.keys_unknownWord (s : State) (w : Word) : (s.unknownWord w).keys = s.keys := rfl
@[simp] theorem State.rnd_unknownWord (s : State) (w : Word) : (s.unknownWord w).rnd = s.rnd := rfl
@[simp] theorem State.pending_unknownWord (s : State) (w : Word) : (s.unknownWord w).pending = s.pending := rfl
@[simp] theorem State.draws_unknownWord (s : State) (w : Word) : (s.unknownWord w).draws = s.draws := rfl
@[simp] theorem State.diag_unknownWord (s : State) (w : Word) : (s.unknownWord w).diag = s.diag ++ [⟨s.pc.setWidth 12, w⟩] := rfl
@[simp] theorem State.loadOpen_unknownWord (s : State) (w : Word) : (s.unknownWord w).loadOpen = s.loadOpen := rfl
@[simp] theorem State.readV_unknownWord (s : State) (w : Word) (q : Nibble) : (s.unknownWord w).readV q = s.readV q := rfl
@[simp] theorem State.readByte_unknownWord (s : State) (w : Word) (q : Nat) : (s.unknownWord w).readByte q = s.readByte q := rfl

/-! ### present -/

@[simp] theorem State.V_present (s : State) (keys : BitVec 16) (rnd : Byte) : (s.present keys rnd).V = s.V := rfl
@[simp] theorem State.I_present (s : State) (keys : BitVec 16) (rnd : Byte) : (s.present keys rnd).I = s.I := rfl
@[simp] theorem State.pc_present (s : State) (keys : BitVec 16) (rnd : Byte) : (s.present keys rnd).pc = s.pc := rfl
@[simp] theorem State.stack_present (s : State) (keys : BitVec 16) (rnd : Byte) : (s.present keys rnd).stack = s.stack := rfl
@[simp] theorem State.SP_present (s : State) (keys : BitVec 16) (rnd : Byte) : (s.present keys rnd).SP = s.SP := rfl
@[simp] theorem State.DT_present (s : State) (keys : BitVec 16) (rnd : Byte) : (s.present keys rnd).DT = s.DT := rfl
@[simp] theorem State.ST_present (s : State) (keys : BitVec 16) (rnd : Byte) : (s.present keys rnd).ST = s.ST := rfl
@[simp] theorem State.mem_present (s : State) (keys : BitVec 16) (rnd : Byte) : (s.present keys rnd).mem = s.mem := rfl
@[simp] theorem State.px_present (s : State) (keys : BitVec 16) (rnd : Byte) : (s.present keys rnd).px = s.px := rfl
@[simp] theorem State.renderNeeded_present (s : State) (keys : BitVec 16) (rnd : Byte) : (s.present keys rnd).renderNeeded = s.renderNeeded := rfl
@[simp] theorem State.run_present (s : State) (keys : BitVec 16) (rnd : Byte) : (s.present keys rnd).run = s.run := rfl
@[simp] theorem State.fault_present (s : State) (keys : BitVec 16) (rnd : Byte) : (s.present keys rnd).fault = s.fault := rfl
@[simp] theorem State.waitX_present (s : State) (keys : BitVec 16) (rnd : Byte) : (s.present keys rnd).waitX = s.waitX := rfl
@[simp] theorem State.keysPrev_present (s : State) (keys : BitVec 16) (rnd : Byte) : (s.present keys rnd).keysPrev = s.keysPrev := rfl
@[simp] theorem State.params_present (s : State) (keys : BitVec 16) (rnd : Byte) : (s.present keys rnd).params = s.params := rfl
@[simp] theorem State.keys_present (s : State) (keys : BitVec 16) (rnd : Byte) : (s.present keys rnd).keys = keys := rfl
@[simp] theorem State.rnd_present (s : State) (keys : BitVec 16) (rnd : Byte) : (s.present keys rnd).rnd = rnd := rfl
@[simp] theorem State.pending_present (s : State) (keys : BitVec 16) (rnd : Byte) : (s.present keys rnd).pending = s.pending := rfl
@[simp] theorem State.draws_present (s : State) (keys : BitVec 16) (rnd : Byte) : (s.present keys rnd).draws = s.draws := rfl
@[simp] theorem State.diag_present (s : State) (keys : BitVec 16) (rnd : Byte) : (s.present keys rnd).diag = s.diag := rfl
@[simp] theorem State.loadOpen_present (s : State) (keys : BitVec 16) (rnd : Byte) : (s.present keys rnd).loadOpen = false := rfl
@[simp] theorem State.readV_present (s : State) (keys : BitVec 16) (rnd : Byte) (q : Nibble) : (s.present keys rnd).readV q = s.readV q := rfl
@[simp] theorem State.readByte_present (s : State) (keys : BitVec 16) (rnd : Byte) (q : Nat) : (s.present keys rnd).readByte q = s.readByte q := rfl

/-! ### tick -/

@[simp] theorem State.V_tick (s : State) : s.tick.V = s.V := rfl
@[simp] theorem State.I_tick (s : State) : s.tick.I = s.I := rfl
@[simp] theorem State.pc_tick (s : State) : s.tick.pc = s.pc := rfl
@[simp] theorem State.stack_tick (s : State) : s.tick.stack = s.stack := rfl
@[simp] theorem State.SP_tick (s : State) : s.tick.SP = s.SP := rfl
@[simp] theorem State.DT_tick (s : State) : s.tick.DT = timerTick s.DT := rfl
@[simp] theorem State.ST_tick (s : State) : s.tick.ST = timerTick s.ST := rfl
@[simp] theorem State.mem_tick (s : State) : s.tick.mem = s.mem := rfl
@[simp] theorem State.px_tick (s : State) : s.tick.px = s.px := rfl
@[simp] theorem State.renderNeeded_tick (s : State) : s.tick.renderNeeded = s.renderNeeded := rfl
@[simp] theorem State.run_tick (s : State) : s.tick.run = s.run := rfl
@[simp] theorem State.fault_tick (s : State) : s.tick.fault = s.fault := rfl
@[simp] theorem State.waitX_tick (s : State) : s.tick.waitX = s.waitX := rfl
@[simp] theorem State.keysPrev_tick (s : State) : s.tick.keysPrev = s.keysPrev := rfl
@[simp] theorem State.params_tick (s : State) : s.tick.params = s.params := rfl
@[simp] theorem State.keys_tick (s : State) : s.tick.keys = s.keys := rfl
@[simp] theorem State.rnd_tick (s : State) : s.tick.rnd = s.rnd := rfl
@[simp] theorem State.pending_tick (s : State) : s.tick.pending = s.pending := rfl
@[simp] theorem State.draws_tick (s : State) : s.tick.draws = s.draws := rfl
@[simp] theorem State.diag_tick (s : State) : s.tick.diag = s.diag := rfl
@[simp] theorem State.loadOpen_tick (s : State) : s.tick.loadOpen = s.loadOpen := rfl
@[simp] theorem State.readV_tick (s : State) (q : Nibble) : s.tick.readV q = s.readV q := rfl
@[simp] theorem State.readByte_tick (s : State) (q : Nat) : s.tick.readByte q = s.readByte q := rfl

/-! ### renderAck -/

@[simp] theorem State.V_renderAck (s : State) : s.renderAck.V = s.V := rfl
@[simp] theorem State.I_renderAck (s : State) : s.renderAck.I = s.I := rfl
@[simp] theorem State.pc_renderAck (s : State) : s.renderAck.pc = s.pc := rfl
@[simp] theorem State.stack_renderAck (s : State) : s.renderAck.stack = s.stack := rfl
@[simp] theorem State.SP_renderAck (s : State) : s.renderAck.SP = s.SP := rfl
@[simp] theorem State.DT_renderAck (s : State) : s.renderAck.DT = s.DT := rfl
@[simp] theorem State.ST_renderAck (s : State) : s.renderAck.ST = s.ST := rfl
@[simp] theorem State.mem_renderAck (s : State) : s.renderAck.mem = s.mem := rfl
@[simp] theorem State.px_renderAck (s : State) : s.renderAck.px = s.px := rfl
@[simp] theorem State.renderNeeded_renderAck (s : State) : s.renderAck.renderNeeded = false := rfl
@[simp] theorem State.run_renderAck (s : State) : s.renderAck.run = s.run := rfl
@[simp] theorem State.fault_renderAck (s : State) : s.renderAck.fault = s.fault := rfl
@[simp] theorem State.waitX_renderAck (s : State) : s.renderAck.waitX = s.waitX := rfl
@[simp] theorem State.keysPrev_renderAck (s : State) : s.renderAck.keysPrev = s.keysPrev := rfl
@[simp] theorem State.params_renderAck (s : State) : s.renderAck.params = s.params := rfl
@[simp] theorem State.keys_renderAck (s : State) : s.renderAck.keys = s.keys := rfl
@[simp] theorem State.rnd_renderAck (s : State) : s.renderAck.rnd = s.rnd := rfl
@[simp] theorem State.pending_renderAck (s : State) : s.renderAck.pending = s.pending := rfl
@[simp] theorem State.draws_renderAck (s : State) : s.renderAck.draws = s.draws := rfl
@[simp] theorem State.diag_renderAck (s : State) : s.renderAck.diag = s.diag := rfl
@[simp] theorem State.loadOpen_renderAck (s : State) : s.renderAck.loadOpen = s.loadOpen := rfl
@[simp] theorem State.readV_renderAck (s : State) (q : Nibble) : s.renderAck.readV q = s.readV q := rfl
@[simp] theorem State.readByte_renderAck (s : State) (q : Nat) : s.renderAck.readByte q = s.readByte q := rfl

/-! ### resetEvent: the elements of the core, and the ports -/

@[simp] theorem State.V_resetEvent (s : State) : s.resetEvent.V = State.reset.V := rfl
@[simp] theorem State.I_resetEvent (s : State) : s.resetEvent.I = State.reset.I := rfl
@[simp] theorem State.pc_resetEvent (s : State) : s.resetEvent.pc = State.reset.pc := rfl
@[simp] theorem State.stack_resetEvent (s : State) : s.resetEvent.stack = State.reset.stack := rfl
@[simp] theorem State.SP_resetEvent (s : State) : s.resetEvent.SP = State.reset.SP := rfl
@[simp] theorem State.DT_resetEvent (s : State) : s.resetEvent.DT = State.reset.DT := rfl
@[simp] theorem State.ST_resetEvent (s : State) : s.resetEvent.ST = State.reset.ST := rfl
@[simp] theorem State.mem_resetEvent (s : State) : s.resetEvent.mem = State.reset.mem := rfl
@[simp] theorem State.px_resetEvent (s : State) : s.resetEvent.px = State.reset.px := rfl
@[simp] theorem State.renderNeeded_resetEvent (s : State) : s.resetEvent.renderNeeded = State.reset.renderNeeded := rfl
@[simp] theorem State.run_resetEvent (s : State) : s.resetEvent.run = State.reset.run := rfl
@[simp] theorem State.fault_resetEvent (s : State) : s.resetEvent.fault = State.reset.fault := rfl
@[simp] theorem State.waitX_resetEvent (s : State) : s.resetEvent.waitX = State.reset.waitX := rfl
@[simp] theorem State.keysPrev_resetEvent (s : State) : s.resetEvent.keysPrev = State.reset.keysPrev := rfl
@[simp] theorem State.params_resetEvent (s : State) : s.resetEvent.params = s.params := rfl
@[simp] theorem State.keys_resetEvent (s : State) : s.resetEvent.keys = s.keys := rfl
@[simp] theorem State.rnd_resetEvent (s : State) : s.resetEvent.rnd = s.rnd := rfl
@[simp] theorem State.pending_resetEvent (s : State) : s.resetEvent.pending = s.pending := rfl
@[simp] theorem State.draws_resetEvent (s : State) : s.resetEvent.draws = s.draws := rfl
@[simp] theorem State.diag_resetEvent (s : State) : s.resetEvent.diag = s.diag := rfl
@[simp] theorem State.loadOpen_resetEvent (s : State) : s.resetEvent.loadOpen = State.reset.loadOpen := rfl

/-! ### resetWith -/

@[simp] theorem State.V_resetWith (p : Params) : (State.resetWith p).V = State.reset.V := rfl
@[simp] theorem State.I_resetWith (p : Params) : (State.resetWith p).I = State.reset.I := rfl
@[simp] theorem State.pc_resetWith (p : Params) : (State.resetWith p).pc = State.reset.pc := rfl
@[simp] theorem State.stack_resetWith (p : Params) : (State.resetWith p).stack = State.reset.stack := rfl
@[simp] theorem State.SP_resetWith (p : Params) : (State.resetWith p).SP = State.reset.SP := rfl
@[simp] theorem State.DT_resetWith (p : Params) : (State.resetWith p).DT = State.reset.DT := rfl
@[simp] theorem State.ST_resetWith (p : Params) : (State.resetWith p).ST = State.reset.ST := rfl
@[simp] theorem State.mem_resetWith (p : Params) : (State.resetWith p).mem = State.reset.mem := rfl
@[simp] theorem State.px_resetWith (p : Params) : (State.resetWith p).px = State.reset.px := rfl
@[simp] theorem State.renderNeeded_resetWith (p : Params) : (State.resetWith p).renderNeeded = State.reset.renderNeeded := rfl
@[simp] theorem State.run_resetWith (p : Params) : (State.resetWith p).run = State.reset.run := rfl
@[simp] theorem State.fault_resetWith (p : Params) : (State.resetWith p).fault = State.reset.fault := rfl
@[simp] theorem State.waitX_resetWith (p : Params) : (State.resetWith p).waitX = State.reset.waitX := rfl
@[simp] theorem State.keysPrev_resetWith (p : Params) : (State.resetWith p).keysPrev = State.reset.keysPrev := rfl
@[simp] theorem State.params_resetWith (p : Params) : (State.resetWith p).params = p := rfl
@[simp] theorem State.keys_resetWith (p : Params) : (State.resetWith p).keys = State.reset.keys := rfl
@[simp] theorem State.rnd_resetWith (p : Params) : (State.resetWith p).rnd = State.reset.rnd := rfl
@[simp] theorem State.pending_resetWith (p : Params) : (State.resetWith p).pending = State.reset.pending := rfl
@[simp] theorem State.draws_resetWith (p : Params) : (State.resetWith p).draws = State.reset.draws := rfl
@[simp] theorem State.diag_resetWith (p : Params) : (State.resetWith p).diag = State.reset.diag := rfl
@[simp] theorem State.loadOpen_resetWith (p : Params) : (State.resetWith p).loadOpen = State.reset.loadOpen := rfl

end Sys2Proof.Machine
end

