-- ==== Sys2Proof/Laws/Ops.lean ====
section
/-!
SUPPORT. One lemma for each shared operation that says all it does, for proofs to cite instead of unfolding it: register results,
`pc`, the call stack, the register block, the key pick, the timers, one pixel.
-/

namespace Sys2Proof.Machine

open Sys2Proof

/-! ## Registers -/

theorem State.readV_writeFlag (s : State) (b : Bool) (q : Nibble) :
    (s.writeFlag b).readV q = if q = 15 then flagByte b else s.readV q :=
  State.readV_writeV s 15 q (flagByte b)

theorem State.readV_writeResult (s : State) (x q : Nibble) (v : Byte) :
    (s.writeResult x v).readV q = if q = x then v else s.readV q :=
  State.readV_writeV s x q v

/-- The flag is written last (00_scope.md R9). -/
theorem State.readV_writeResultFlag (s : State) (x q : Nibble) (v : Byte) (b : Bool) :
    (s.writeResultFlag x v b).readV q = if q = 15 then flagByte b else if q = x then v else s.readV q := by
  rw [State.writeResultFlag, State.readV_advance, State.readV_writeFlag, State.readV_writeV]

/-! ## Numbers stored modulo 4096 -/

theorem toNat_masked (t : Nat) : (BitVec.ofNat 16 (t % Config.memSize)).toNat = t % Config.memSize := by
  rw [BitVec.toNat_ofNat, Config.memSize]
  omega

theorem State.toNat_pc_setPc (s : State) (t : Nat) : (s.setPc t).pc.toNat = t % Config.memSize :=
  toNat_masked t

theorem State.toNat_pc_advance (s : State) : s.advance.pc.toNat = (s.pc.toNat + 2) % Config.memSize :=
  toNat_masked _

theorem State.toNat_pc_skipIf (s : State) (c : Bool) :
    (s.skipIf c).pc.toNat = (s.pc.toNat + if c then 4 else 2) % Config.memSize := by
  rw [State.pc_skipIf]
  exact toNat_masked _

theorem State.toNat_I_setI (s : State) (v : Nat) : (s.setI v).I.toNat = v % Config.memSize :=
  toNat_masked v

/-! ## The call stack (10_state.md R29, R30) -/

theorem State.push_of_lt {s : State} (v : Nat) (h : s.SP.val < 16) :
    s.push v = .ok { s with
      stack := s.stack.set s.SP.val (BitVec.ofNat 16 (v % Config.memSize)) h
      SP := ⟨s.SP.val + 1, Nat.succ_lt_succ h⟩ } :=
  dif_pos h

theorem State.push_of_full {s : State} (v : Nat) (h : s.SP.val = 16) : s.push v = .error .stackOverflow :=
  dif_neg (by simp [h])

theorem State.pop_of_empty {s : State} (h : s.SP.val = 0) : s.pop = .error .stackUnderflow := by
  have : s.SP = ⟨0, by decide⟩ := Fin.ext h
  simp only [State.pop, this]

theorem State.pop_of_pos {s : State} (h : 0 < s.SP.val) :
    s.pop = .ok (s.stack[s.SP.val - 1], { s with SP := ⟨s.SP.val - 1, by omega⟩ }) := by
  obtain ⟨_, _, _, _, ⟨_ | k, hk⟩, _, _, _, _, _, _, _, _, _, _, _, _, _, _, _⟩ := s
  · exact absurd h (Nat.lt_irrefl 0)
  · rfl

/-! ## The register block (43_index_memory.md R135) -/

/-- Register `j` after a block load: the byte for it, or its old value. -/
theorem getElem_loadRegBytes (V : Vector Byte 16) (k : Nat) (bs : List Byte) (j : Nat) (hj : j < 16) :
    (loadRegBytes V k bs)[j] = if h : k ≤ j ∧ j - k < bs.length then bs[j - k] else V[j] := by
  induction bs generalizing V k with
  | nil => simp [loadRegBytes]
  | cons b bs ih =>
    rw [loadRegBytes, ih]
    by_cases hk : k = j
    · subst hk
      simp
    · by_cases hlt : k < j
      · obtain ⟨d, rfl⟩ : ∃ d, j = k + 1 + d := ⟨j - (k + 1), by omega⟩
        have h1 : k + 1 + d - (k + 1) = d := by omega
        have h2 : k + 1 + d - k = d + 1 := by omega
        have h3 : k ≤ k + 1 + d := by omega
        simp only [h1, h2, h3, true_and, Nat.le_add_right, List.length_cons, Nat.add_lt_add_iff_right,
          List.getElem_cons_succ, Vector.getElem_setIfInBounds_ne hj hk]
      · have h1 : ¬ k + 1 ≤ j := by omega
        have h2 : ¬ k ≤ j := by omega
        simp [h1, h2, hk]

/-! ## The key pick (45_keys_timers.md R154) -/

theorem getLsbD_newlyDown (keys keysPrev : BitVec 16) {k : Nat} (hk : k < 16) :
    (newlyDown keys keysPrev).getLsbD k = (keys.getLsbD k && !keysPrev.getLsbD k) := by
  simp [newlyDown, hk]

theorem lowestKeyFrom_spec (down : BitVec 16) (k n : Nat) (hn : k + n = 16)
    (h : ∃ j, k ≤ j ∧ j < 16 ∧ down.getLsbD j = true) :
    down.getLsbD (lowestKeyFrom down k n).toNat = true ∧
      ∀ j, k ≤ j → j < (lowestKeyFrom down k n).toNat → down.getLsbD j = false := by
  induction n generalizing k with
  | zero =>
    obtain ⟨j, h1, h2, -⟩ := h
    omega
  | succ n ih =>
    rw [lowestKeyFrom]
    split
    next hd =>
      have hk : (BitVec.ofNat 4 k).toNat = k := by
        rw [BitVec.toNat_ofNat]
        omega
      rw [hk]
      exact ⟨hd, fun j h1 h2 => absurd h2 (by omega)⟩
    next hd =>
      have hd' : down.getLsbD k = false := by simpa using hd
      obtain ⟨j, h1, h2, h3⟩ := h
      have hne : j ≠ k := fun he => by simp [he, hd'] at h3
      obtain ⟨g1, g2⟩ := ih (k + 1) (by omega) ⟨j, by omega, h2, h3⟩
      refine ⟨g1, fun i hi hlt => ?_⟩
      by_cases he : i = k
      · rw [he, hd']
      · exact g2 i (by omega) hlt

theorem exists_of_newlyDown {keys keysPrev : BitVec 16} (h : newlyDown keys keysPrev ≠ 0) :
    ∃ k, k < 16 ∧ (newlyDown keys keysPrev).getLsbD k = true := by
  by_contra hc
  refine h (BitVec.eq_of_getLsbD_eq fun k hk => ?_)
  have : ¬ (newlyDown keys keysPrev).getLsbD k = true := fun hd => hc ⟨k, hk, hd⟩
  simpa using this

/-- The lowest key went down, and no lower one did. -/
theorem lowestKey_spec {down : BitVec 16} (h : ∃ k, k < 16 ∧ down.getLsbD k = true) :
    down.getLsbD (lowestKey down).toNat = true ∧ ∀ j, j < (lowestKey down).toNat → down.getLsbD j = false := by
  obtain ⟨k, hk, hd⟩ := h
  obtain ⟨h1, h2⟩ := lowestKeyFrom_spec down 0 16 rfl ⟨k, Nat.zero_le k, hk, hd⟩
  exact ⟨h1, fun j hj => h2 j (Nat.zero_le j) hj⟩

/-- Whatever `KEY_PICK` is, it takes a key that went down. -/
theorem getLsbD_pickKey (pick : Config.KeyPick) (n : Nat) {down : BitVec 16} (h : ∃ k, k < 16 ∧ down.getLsbD k = true) :
    down.getLsbD (pickKey pick n down).toNat = true := by
  have hif : ∀ k, down.getLsbD (pickIfDown down k).toNat = true := by
    intro k
    unfold pickIfDown
    split
    next hk => exact hk
    next => exact (lowestKey_spec h).1
  cases pick with
  | lowest => exact (lowestKey_spec h).1
  | table answers => exact hif _
  | any => exact hif _

/-! ## The timers (60_exceptions.md R181) -/

theorem toNat_timerTick (t : Byte) : (timerTick t).toNat = t.toNat - 1 := by
  unfold timerTick
  split
  next h => simp [h]
  next h =>
    have : t.toNat ≠ 0 := fun h0 => h (BitVec.eq_of_toNat_eq (by simpa using h0))
    have := t.isLt
    rw [BitVec.toNat_sub]
    simp
    omega

theorem toNat_timerTicks (n : Nat) (t : Byte) : (timerTicks n t).toNat = t.toNat - n := by
  unfold timerTicks
  split
  next h => simp [h]
  next =>
    have := t.isLt
    rw [BitVec.toNat_ofNat]
    omega

end Sys2Proof.Machine
end

