-- ==== Sys2Proof/Laws/PerInstr.lean ====
section
/-!
SUPPORT. The family RoundTrip, one lemma per constructor of `Instr`: the word the encoder gives an instruction is the word the
decoder reads as that instruction, with every operand at every value its field holds (30_encoding.md R74, R82).
-/

namespace Sys2Proof.Laws.RoundTrip

open Sys2Proof

/-- Decoding the encoded instruction gives it back. -/
def Statement (i : Instr) : Prop := decodeWord (encodeWord i) = some i

theorem cls : Statement .cls := by unfold Statement; decide
theorem ret : Statement .ret := by unfold Statement; decide
theorem jp (nnn : BitVec 12) : Statement (.jp nnn) := by simp [Statement, encodeWord, decodeWord]
theorem call (nnn : BitVec 12) : Statement (.call nnn) := by simp [Statement, encodeWord, decodeWord]
theorem seK (x : Nibble) (kk : Byte) : Statement (.seK x kk) := by simp [Statement, encodeWord, decodeWord]
theorem sneK (x : Nibble) (kk : Byte) : Statement (.sneK x kk) := by simp [Statement, encodeWord, decodeWord]
theorem seV (x y : Nibble) : Statement (.seV x y) := by simp [Statement, encodeWord, decodeWord, decodeXY0]
theorem ldK (x : Nibble) (kk : Byte) : Statement (.ldK x kk) := by simp [Statement, encodeWord, decodeWord]
theorem addK (x : Nibble) (kk : Byte) : Statement (.addK x kk) := by simp [Statement, encodeWord, decodeWord]
theorem ldV (x y : Nibble) : Statement (.ldV x y) := by simp [Statement, encodeWord, decodeWord, decode8]
theorem orV (x y : Nibble) : Statement (.orV x y) := by simp [Statement, encodeWord, decodeWord, decode8]
theorem andV (x y : Nibble) : Statement (.andV x y) := by simp [Statement, encodeWord, decodeWord, decode8]
theorem xorV (x y : Nibble) : Statement (.xorV x y) := by simp [Statement, encodeWord, decodeWord, decode8]
theorem addV (x y : Nibble) : Statement (.addV x y) := by simp [Statement, encodeWord, decodeWord, decode8]
theorem sub (x y : Nibble) : Statement (.sub x y) := by simp [Statement, encodeWord, decodeWord, decode8]
theorem shr (x y : Nibble) : Statement (.shr x y) := by simp [Statement, encodeWord, decodeWord, decode8]
theorem subn (x y : Nibble) : Statement (.subn x y) := by simp [Statement, encodeWord, decodeWord, decode8]
theorem shl (x y : Nibble) : Statement (.shl x y) := by simp [Statement, encodeWord, decodeWord, decode8]
theorem sneV (x y : Nibble) : Statement (.sneV x y) := by simp [Statement, encodeWord, decodeWord, decodeXY0]
theorem ldI (nnn : BitVec 12) : Statement (.ldI nnn) := by simp [Statement, encodeWord, decodeWord]
theorem jpV0 (nnn : BitVec 12) : Statement (.jpV0 nnn) := by simp [Statement, encodeWord, decodeWord]
theorem rnd (x : Nibble) (kk : Byte) : Statement (.rnd x kk) := by simp [Statement, encodeWord, decodeWord]
theorem drw (x y n : Nibble) : Statement (.drw x y n) := by simp [Statement, encodeWord, decodeWord]
theorem skp (x : Nibble) : Statement (.skp x) := by simp [Statement, encodeWord, decodeWord, decodeE]
theorem sknp (x : Nibble) : Statement (.sknp x) := by simp [Statement, encodeWord, decodeWord, decodeE]
theorem ldVDt (x : Nibble) : Statement (.ldVDt x) := by simp [Statement, encodeWord, decodeWord, decodeF]
theorem ldVKey (x : Nibble) : Statement (.ldVKey x) := by simp [Statement, encodeWord, decodeWord, decodeF]
theorem ldDtV (x : Nibble) : Statement (.ldDtV x) := by simp [Statement, encodeWord, decodeWord, decodeF]
theorem ldStV (x : Nibble) : Statement (.ldStV x) := by simp [Statement, encodeWord, decodeWord, decodeF]
theorem addI (x : Nibble) : Statement (.addI x) := by simp [Statement, encodeWord, decodeWord, decodeF]
theorem ldF (x : Nibble) : Statement (.ldF x) := by simp [Statement, encodeWord, decodeWord, decodeF]
theorem ldB (x : Nibble) : Statement (.ldB x) := by simp [Statement, encodeWord, decodeWord, decodeF]
theorem stRegs (x : Nibble) : Statement (.stRegs x) := by simp [Statement, encodeWord, decodeWord, decodeF]
theorem ldRegs (x : Nibble) : Statement (.ldRegs x) := by simp [Statement, encodeWord, decodeWord, decodeF]

end Sys2Proof.Laws.RoundTrip
end

