-- ==== Sys2Proof/Laws/Ports.lean ====
section
/-!
SUPPORT. The tone output by the value of `ST` (60_exceptions.md R183, R184).
-/

namespace Sys2Proof.Machine

open Sys2Proof

theorem State.toneActive_of_zero {s : State} (h : s.ST = 0) : s.toneActive = false := by
  rw [State.toneActive, h]
  rfl

theorem State.toneActive_of_ne_zero {s : State} (h : s.ST ≠ 0) : s.toneActive = true :=
  bne_iff_ne.mpr h

/-- An edge needs a change of level. -/
theorem toneEdge_of_same {s t : State} (h : t.ST = s.ST) : toneEdge s t = none := by
  unfold toneEdge State.toneActive
  rw [h]
  cases s.ST != 0 <;> rfl

end Sys2Proof.Machine
end

