-- ==== Sys2Proof/Laws/Step.lean ====
section
/-!
SUPPORT. What one step can do, said once: which event it delivers, what a `Step` does by `run`, how the bytes at `pc` and the fetched
word go together, that every instruction answers a next state, and what no instruction touches.
-/

namespace Sys2Proof.Machine

open Sys2Proof

/-! ## The event delivered -/

theorem step_of_pending {s : State} {e : HostEvent} {rest : List HostEvent} (h : s.pending = e :: rest) :
    step s = deliver e { s with pending := rest } := by
  unfold step
  rw [h]

theorem step_of_unscripted {s : State} (h : s.pending = []) : step s = runCycle s.hostTurn := by
  unfold step
  rw [h]

/-- The state in which a scheduled `Step` runs its cycle. -/
theorem step_of_step {s : State} {keys : BitVec 16} {rnd : Byte} {rest : List HostEvent}
    (h : s.pending = .step keys rnd :: rest) :
    step s = runCycle { s with pending := rest, keys := keys, rnd := rnd, loadOpen := false } :=
  step_of_pending h

/-! ## The cycle by `run` -/

theorem runCycle_of_run {s : State} (h : s.run = .run) : runCycle s = runInstr s := by
  unfold runCycle
  rw [h]

theorem runCycle_of_wait {s : State} (h : s.run = .wait) : runCycle s = .next s.pollWait := by
  unfold runCycle
  rw [h]

theorem runCycle_of_halt {s : State} (h : s.run = .halt) : runCycle s = .next s := by
  unfold runCycle
  rw [h]

theorem runInstr_of_some {s : State} {i : Instr} (h : decodeWord s.fetchWord = some i) : runInstr s = exec i s := by
  unfold runInstr
  rw [h]

theorem runInstr_of_none {s : State} (h : decodeWord s.fetchWord = none) :
    runInstr s = .next (s.unknownWord s.fetchWord) := by
  unfold runInstr
  rw [h]

/-! ## The fetched word and the bytes at `pc` -/

theorem fetchWord_eq (s : State) :
    s.fetchWord = wordOfBytes (s.readByte s.pc.toNat) (s.readByte (s.pc.toNat + 1)) := rfl

/-- Decoding the two bytes at `pc` is decoding the fetched word. -/
theorem decode_at_pc (s : State) :
    decode [s.readByte s.pc.toNat, s.readByte (s.pc.toNat + 1)] =
      match decodeWord s.fetchWord with
      | some i => .ok (i, [])
      | none => .error (.unknownWord s.fetchWord) := rfl

theorem decodeWord_of_decode_ok {s : State} {i : Instr}
    (h : decode [s.readByte s.pc.toNat, s.readByte (s.pc.toNat + 1)] = .ok (i, [])) :
    decodeWord s.fetchWord = some i := by
  rw [decode_at_pc] at h
  split at h
  next hd => simpa [hd] using h
  next => cases h

theorem decodeWord_of_decode_error {s : State} {w : Word}
    (h : decode [s.readByte s.pc.toNat, s.readByte (s.pc.toNat + 1)] = .error (.unknownWord w)) :
    decodeWord s.fetchWord = none ∧ s.fetchWord = w := by
  rw [decode_at_pc] at h
  split at h
  next => cases h
  next hd => exact ⟨hd, by simpa using h⟩

/-! ## A scheduled `Step`, by what it finds -/

section
variable {s : State} {keys : BitVec 16} {rnd : Byte} {rest : List HostEvent}

theorem step_executes (hp : s.pending = .step keys rnd :: rest) (hr : s.run = .run) {i : Instr}
    (hd : decodeWord s.fetchWord = some i) :
    step s = exec i { s with pending := rest, keys := keys, rnd := rnd, loadOpen := false } := by
  rw [step_of_step hp, runCycle_of_run (by exact hr)]
  exact runInstr_of_some (s := State.present { s with pending := rest } keys rnd) hd

theorem step_reports (hp : s.pending = .step keys rnd :: rest) (hr : s.run = .run)
    (hd : decodeWord s.fetchWord = none) :
    step s = .next (State.unknownWord { s with pending := rest, keys := keys, rnd := rnd, loadOpen := false } s.fetchWord) := by
  rw [step_of_step hp, runCycle_of_run (by exact hr)]
  exact runInstr_of_none (s := State.present { s with pending := rest } keys rnd) hd

theorem step_polls (hp : s.pending = .step keys rnd :: rest) (hr : s.run = .wait) :
    step s = .next (State.pollWait { s with pending := rest, keys := keys, rnd := rnd, loadOpen := false }) := by
  rw [step_of_step hp]
  exact runCycle_of_wait (s := State.present { s with pending := rest } keys rnd) hr

theorem step_ignored (hp : s.pending = .step keys rnd :: rest) (hr : s.run = .halt) :
    step s = .next { s with pending := rest, keys := keys, rnd := rnd, loadOpen := false } := by
  rw [step_of_step hp]
  exact runCycle_of_halt (s := State.present { s with pending := rest } keys rnd) hr

end

/-! ## Every instruction answers a next state -/

/-- The two ends of `CALL`. -/
theorem exec_call_cases (nnn : BitVec 12) (s : State) :
    (s.SP.val = 16 ∧ exec (.call nnn) s = .next (s.raise .stackOverflow)) ∨
      ∃ h : s.SP.val < 16, exec (.call nnn) s = .next (State.setPc
        { s with
          stack := s.stack.set s.SP.val (BitVec.ofNat 16 ((s.pc.toNat + 2) % Config.memSize)) (by omega)
          SP := ⟨s.SP.val + 1, by omega⟩ } nnn.toNat) := by
  by_cases h : s.SP.val < 16
  · exact .inr ⟨h, by simp only [exec, execCall, State.push_of_lt _ h]⟩
  · have h' : s.SP.val = 16 := by omega
    exact .inl ⟨h', by simp only [exec, execCall, State.push_of_full _ h']⟩

/-- The two ends of `RET`. -/
theorem exec_ret_cases (s : State) :
    (s.SP.val = 0 ∧ exec .ret s = .next (s.raise .stackUnderflow)) ∨
      ∃ h : 0 < s.SP.val, exec .ret s = .next
        (State.setPc { s with SP := ⟨s.SP.val - 1, by omega⟩ } (s.stack[s.SP.val - 1]).toNat) := by
  by_cases h : 0 < s.SP.val
  · exact .inr ⟨h, by simp only [exec, execRet, State.pop_of_pos h]⟩
  · have h' : s.SP.val = 0 := by omega
    exact .inl ⟨h', by simp only [exec, execRet, State.pop_of_empty h']⟩

theorem exec_answers (i : Instr) (s : State) : ∃ t, exec i s = .next t := by
  cases i with
  | call nnn => rcases exec_call_cases nnn s with ⟨_, h⟩ | ⟨_, h⟩ <;> exact ⟨_, h⟩
  | ret => rcases exec_ret_cases s with ⟨_, h⟩ | ⟨_, h⟩ <;> exact ⟨_, h⟩
  | _ => exact ⟨_, rfl⟩

/-- What an instruction does to `run` and `fault`: the two stack faults, the key wait, or nothing. -/
theorem exec_run_cases {i : Instr} {s t : State} (he : exec i s = .next t) :
    (i = .ret ∧ s.SP.val = 0 ∧ t = s.raise .stackUnderflow) ∨
      (∃ nnn, i = .call nnn ∧ s.SP.val = 16 ∧ t = s.raise .stackOverflow) ∨
      (∃ x, i = .ldVKey x ∧ t = { s with waitX := x, keysPrev := s.keys, run := .wait }) ∨
      (t.run = s.run ∧ t.fault = s.fault) := by
  cases i with
  | ret =>
    rcases exec_ret_cases s with ⟨h, he'⟩ | ⟨_, he'⟩ <;> rw [he'] at he <;> cases he
    · exact .inl ⟨rfl, h, rfl⟩
    · exact .inr (.inr (.inr ⟨rfl, rfl⟩))
  | call nnn =>
    rcases exec_call_cases nnn s with ⟨h, he'⟩ | ⟨_, he'⟩ <;> rw [he'] at he <;> cases he
    · exact .inr (.inl ⟨nnn, rfl, h, rfl⟩)
    · exact .inr (.inr (.inr ⟨rfl, rfl⟩))
  | ldVKey x => cases he; exact .inr (.inr (.inl ⟨x, rfl, rfl⟩))
  | seK | sneK | seV | sneV | skp | sknp =>
    cases he
    exact .inr (.inr (.inr ⟨State.run_skipIf _ _, State.fault_skipIf _ _⟩))
  | _ => cases he; exact .inr (.inr (.inr ⟨rfl, rfl⟩))

/-- No instruction touches the host's side of the ports, or a parameter. -/
theorem exec_ports {i : Instr} {s t : State} (he : exec i s = .next t) :
    t.keys = s.keys ∧ t.rnd = s.rnd ∧ t.pending = s.pending ∧ t.draws = s.draws ∧ t.diag = s.diag ∧
      t.loadOpen = s.loadOpen ∧ t.params = s.params := by
  cases i with
  | ret =>
    rcases exec_ret_cases s with ⟨_, he'⟩ | ⟨_, he'⟩ <;> rw [he'] at he <;> cases he <;> exact ⟨rfl, rfl, rfl, rfl, rfl, rfl, rfl⟩
  | call nnn =>
    rcases exec_call_cases nnn s with ⟨_, he'⟩ | ⟨_, he'⟩ <;> rw [he'] at he <;> cases he <;> exact ⟨rfl, rfl, rfl, rfl, rfl, rfl, rfl⟩
  | seK | sneK | seV | sneV | skp | sknp => cases he; simp
  | _ => cases he; exact ⟨rfl, rfl, rfl, rfl, rfl, rfl, rfl⟩

/-! ## The poll of the key wait (45_keys_timers.md R154) -/

/-- The two ends of a poll: no key newly down, or some key newly down. -/
theorem State.pollWait_cases (s : State) :
    (newlyDown s.keys s.keysPrev = 0 ∧ s.pollWait = { s with keysPrev := s.keys }) ∨
      (newlyDown s.keys s.keysPrev ≠ 0 ∧ s.pollWait =
        { s.writeV s.waitX ((pickKey s.params.keyPick s.draws (newlyDown s.keys s.keysPrev)).setWidth 8) with
          run := .run
          draws := s.draws + pickDraws s.params.keyPick }.advance) := by
  by_cases h : newlyDown s.keys s.keysPrev = 0
  · exact .inl ⟨h, by simp only [State.pollWait, h, if_true]⟩
  · exact .inr ⟨h, by simp only [State.pollWait, h, if_false]⟩

theorem runCycle_answers (s : State) : ∃ t, runCycle s = .next t := by
  cases h : s.run with
  | wait => exact ⟨_, runCycle_of_wait h⟩
  | halt => exact ⟨_, runCycle_of_halt h⟩
  | run =>
    rw [runCycle_of_run h]
    cases hd : decodeWord s.fetchWord with
    | some i => rw [runInstr_of_some hd]; exact exec_answers i s
    | none => exact ⟨_, runInstr_of_none hd⟩

end Sys2Proof.Machine
end

