-- ==== Sys2Proof/Tests/Slice0.lean ====
section
/-!
SUPPORT. Tests. The words are written out from the encodings of 30_encoding.md R75; the expected results are those of
95_test_vectors.md (the vector is named) or hand calculation from the rule named. The last part shows, for every statement with
hypotheses, a state and operands that meet them all.
-/

namespace Sys2Proof.Tests

open Sys2Proof Sys2Proof.Machine

/-! ## Decoding: one word of every form, written from its row of R75 -/

theorem test_decode_flow_and_compare :
    [0b0000000011100000#16,
      0b0000000011101110#16,
      0b0001_0010_0011_0100#16,
      0b0010_1010_1011_1100#16,
      0b0011_1010_0100_0010#16,
      0b0100_1010_0100_0010#16,
      0b0101_0011_0100_0000#16].map decodeWord =
    [some .cls,
      some .ret,
      some (.jp 0x234),
      some (.call 0xABC),
      some (.seK 10 0x42),
      some (.sneK 10 0x42),
      some (.seV 3 4)] := by decide

theorem test_decode_immediates_and_registers :
    [0b0110_1111_1010_1010#16,
      0b0111_0001_1111_1110#16,
      0b1000_0001_0010_0000#16,
      0b1000_0001_0010_0001#16,
      0b1000_0001_0010_0010#16,
      0b1000_0001_0010_0011#16,
      0b1000_0001_0010_0100#16,
      0b1000_0001_0010_0101#16,
      0b1000_0001_0010_0110#16,
      0b1000_0001_0010_0111#16,
      0b1000_0001_0010_1110#16].map decodeWord =
    [some (.ldK 15 0xAA),
      some (.addK 1 0xFE),
      some (.ldV 1 2),
      some (.orV 1 2),
      some (.andV 1 2),
      some (.xorV 1 2),
      some (.addV 1 2),
      some (.sub 1 2),
      some (.shr 1 2),
      some (.subn 1 2),
      some (.shl 1 2)] := by decide

theorem test_decode_index_random_and_draw :
    [0b1001_0011_0100_0000#16,
      0b1010_1111_1111_1110#16,
      0b1011_0011_0000_0001#16,
      0b1100_0001_0000_1111#16,
      0b1101_0001_0010_0101#16].map decodeWord =
    [some (.sneV 3 4),
      some (.ldI 0xFFE),
      some (.jpV0 0x301),
      some (.rnd 1 0x0F),
      some (.drw 1 2 5)] := by decide

theorem test_decode_keys_and_timers :
    [0b1110_0001_1001_1110#16,
      0b1110_0001_1010_0001#16,
      0b1111_0010_0000_0111#16,
      0b1111_0101_0000_1010#16,
      0b1111_0010_0001_0101#16,
      0b1111_0010_0001_1000#16].map decodeWord =
    [some (.skp 1),
      some (.sknp 1),
      some (.ldVDt 2),
      some (.ldVKey 5),
      some (.ldDtV 2),
      some (.ldStV 2)] := by decide

theorem test_decode_index_and_memory :
    [0b1111_0010_0001_1110#16,
      0b1111_0010_0010_1001#16,
      0b1111_0010_0011_0011#16,
      0b1111_0010_0101_0101#16,
      0b1111_0010_0110_0101#16].map decodeWord =
    [some (.addI 2),
      some (.ldF 2),
      some (.ldB 2),
      some (.stRegs 2),
      some (.ldRegs 2)] := by decide

/-- 95_test_vectors.md, vector U1: the six unknown words. -/
theorem test_decode_unknown :
    [0x5AB1#16, 0x8128#16, 0xE19F#16, 0xF1FF#16, 0x0000#16, 0x00E1#16].map decodeWord =
      [none, none, none, none, none, none] := by decide

/-- R70, R76: two bytes are consumed, the rest is left; a lone byte is no instruction. -/
theorem test_decode_bytes :
    decode [0x60, 0x05, 0xD0] = .ok (.ldK 0 5, [0xD0]) ∧ decode [0x60] = .error .truncated ∧
      decode [0x81, 0x28] = .error (.unknownWord 0x8128) := ⟨rfl, rfl, rfl⟩

/-- The table numbers the bits of a one-word instruction as the word does. -/
theorem test_decode_table_word :
    decodeTableWord 16 0xD125 = some (.drw 1 2 5) ∧ decodeTableWord 16 0x0000 = none := by decide

/-! ## Well-formedness: the one check, a program's size (R57); no term of `Instr` is ill formed (R73, R78) -/

theorem test_wellformed_program_too_long : programWellFormed (List.replicate 3585 0) = false := by
  rw [programWellFormed, List.length_replicate]
  decide

theorem test_wellformed_program_fits : programWellFormed (List.replicate 3584 0) = true := by
  rw [programWellFormed, List.length_replicate]
  decide

theorem test_wellformed_degenerate_operands : (Instr.drw 3 3 0).wellFormed = true ∧ (Instr.shr 15 15).wellFormed = true := by decide

/-! ## One step from a small state -/

/-- The reset state with some registers set. -/
def withRegs (regs : List (Nibble × Byte)) : State := regs.foldl (fun s r => s.writeV r.1 r.2) State.reset

/-- `s` with some bytes stored. -/
def withBytes (s : State) (a : Nat) (bytes : List Byte) : State := s.writeBytes a bytes

/-- The next state, if there is one. -/
def nextOf (o : Host.Outcome State Fault Refusal) : Option State :=
  match o with
  | .next t => some t
  | _ => none

/-- The state after the `Step` that finds `w` at `pc`. -/
def after (s : State) (w : Nat) : Option State := nextOf (step (s.withFetchWord 16 w))

/-- The pixels set, as (column, row), in the order of `frame`. -/
def pixelsSet (s : State) (rows : List Nat) : List (Nat × Nat) :=
  rows.flatMap (fun y => ((List.range 64).filter (fun x => pixelAt s.px x y)).map (fun x => (x, y)))

/-- Vector T1. -/
theorem test_ret :
    (after ({ State.reset with pc := 0x400, SP := 2, stack := (State.reset.stack.set 0 0x206).set 1 0x30A }) 0x00EE).map (fun t => (t.pc, t.SP.val, t.stack[1])) = some ((0x30A, 1, 0x30A)) := by decide

/-- Vector T9, F2. -/
theorem test_ret_empty :
    (after State.reset 0x00EE).map (fun t => (t.pc, t.SP.val, t.run, t.fault)) = some ((0x200, 0, .halt, some .stackUnderflow)) := by decide

/-- Vector T2. -/
theorem test_jp :
    (after State.reset 0x1201).map (fun t => t.pc) = some (0x201) := by decide

/-- Vector T3. -/
theorem test_call_wraps :
    (after ({ State.reset with pc := 0xFFE }) 0x2ABC).map (fun t => (t.stack[0], t.SP.val, t.pc)) = some ((0x000, 1, 0xABC)) := by decide

/-- Vector T3c. -/
theorem test_call_full :
    (after ({ State.reset with SP := 16 }) 0x2300).map (fun t => (t.pc, t.SP.val, t.run, t.fault)) = some ((0x200, 16, .halt, some .stackOverflow)) := by decide

/-- Vector T4. -/
theorem test_jpV0_wraps :
    (after (withRegs [(0, 0xFF)]) 0xBFFF).map (fun t => t.pc) = some (0x0FE) := by decide

/-- Vector T5. -/
theorem test_seK_skip_wraps :
    (after ({ withRegs [(10, 0x42)] with pc := 0xFFE }) 0x3A42).map (fun t => t.pc) = some (0x002) := by decide

/-- Vector T5b. -/
theorem test_seK_falls_through :
    (after (withRegs [(10, 0x43)]) 0x3A42).map (fun t => t.pc) = some (0x202) := by decide

/-- Vector T6. -/
theorem test_sneK :
    (after (withRegs [(10, 0x42)]) 0x4A42).map (fun t => t.pc) = some (0x202) := by decide

/-- Vector T6b. -/
theorem test_sneK_skips :
    (after (withRegs [(10, 0x43)]) 0x4A42).map (fun t => t.pc) = some (0x204) := by decide

/-- Vector T7. -/
theorem test_seV_same :
    (after (withRegs [(3, 0x99)]) 0x5330).map (fun t => t.pc) = some (0x204) := by decide

/-- Vector T7b. -/
theorem test_seV_differ :
    (after (withRegs [(3, 1), (4, 2)]) 0x5340).map (fun t => t.pc) = some (0x202) := by decide

/-- Vector T8. -/
theorem test_sneV_same :
    (after (withRegs [(3, 0x99)]) 0x9330).map (fun t => t.pc) = some (0x202) := by decide

/-- Vector T8b. -/
theorem test_sneV_differ :
    (after (withRegs [(3, 1), (4, 2)]) 0x9340).map (fun t => t.pc) = some (0x204) := by decide

/-- Vector A1. -/
theorem test_ldK_into_flag :
    (after State.reset 0x6FAA).map (fun t => (t.readV 15, t.pc)) = some ((0xAA, 0x202)) := by decide

/-- Vector A2. -/
theorem test_addK_no_carry :
    (after (withRegs [(0, 0xFF), (15, 1)]) 0x7001).map (fun t => (t.readV 0, t.readV 15)) = some ((0, 1)) := by decide

/-- Vector A3. -/
theorem test_ldV :
    (after (withRegs [(1, 1), (2, 0x7E)]) 0x8120).map (fun t => (t.readV 1, t.readV 2)) = some ((0x7E, 0x7E)) := by decide

/-- Vector A4. -/
theorem test_or :
    (after (withRegs [(1, 0xF0), (2, 0x0F), (15, 0x55)]) 0x8121).map (fun t => (t.readV 1, t.readV 15)) = some ((0xFF, 0x55)) := by decide

/-- Vector A5. -/
theorem test_and :
    (after (withRegs [(1, 0xF3), (2, 0x3F), (15, 0x55)]) 0x8122).map (fun t => (t.readV 1, t.readV 15)) = some ((0x33, 0x55)) := by decide

/-- Vector A6. -/
theorem test_xor :
    (after (withRegs [(1, 0xF3), (2, 0x3F), (15, 0x55)]) 0x8123).map (fun t => (t.readV 1, t.readV 15)) = some ((0xCC, 0x55)) := by decide

/-- Vector A7c. -/
theorem test_addV_into_flag :
    (after (withRegs [(15, 0xF0), (1, 0x20)]) 0x8F14).map (fun t => t.readV 15) = some (1) := by decide

/-- Vector A7d. -/
theorem test_addV_from_flag :
    (after (withRegs [(1, 0x10), (15, 0xF8)]) 0x81F4).map (fun t => (t.readV 1, t.readV 15)) = some ((0x08, 1)) := by decide

/-- Vector A8a. -/
theorem test_sub_borrow :
    (after (withRegs [(1, 0x10), (2, 0x20)]) 0x8125).map (fun t => (t.readV 1, t.readV 15)) = some ((0xF0, 0)) := by decide

/-- Vector A8b. -/
theorem test_sub_equal :
    (after (withRegs [(1, 0x33), (2, 0x33)]) 0x8125).map (fun t => (t.readV 1, t.readV 15)) = some ((0, 1)) := by decide

/-- Vector A9a. -/
theorem test_shr_source :
    (after (withRegs [(1, 0x08), (2, 0x05)]) 0x8126).map (fun t => (t.readV 1, t.readV 15, t.readV 2)) = some ((2, 1, 5)) := by decide

/-- Vector A9d. -/
theorem test_shr_from_flag :
    (after (withRegs [(15, 0x04), (1, 0xFF)]) 0x81F6).map (fun t => (t.readV 1, t.readV 15)) = some ((2, 0)) := by decide

/-- Vector A10a. -/
theorem test_subn_borrow :
    (after (withRegs [(1, 0x20), (2, 0x10)]) 0x8127).map (fun t => (t.readV 1, t.readV 15)) = some ((0xF0, 0)) := by decide

/-- Vector A10c. -/
theorem test_subn_equal :
    (after (withRegs [(1, 7), (2, 7)]) 0x8127).map (fun t => (t.readV 1, t.readV 15)) = some ((0, 1)) := by decide

/-- Vector A11a. -/
theorem test_shl_source :
    (after (withRegs [(2, 0x81)]) 0x812E).map (fun t => (t.readV 1, t.readV 15, t.readV 2)) = some ((2, 1, 0x81)) := by decide

/-- Vector A11c. -/
theorem test_shl_into_flag :
    (after (withRegs [(1, 0xC0)]) 0x8F1E).map (fun t => t.readV 15) = some (1) := by decide

/-- Vector A12a. -/
theorem test_rnd_masked :
    (after ({ State.reset with rnd := 0xA7 }) 0xC10F).map (fun t => t.readV 1) = some (0x07) := by decide

/-- Vector M0. -/
theorem test_ldI :
    (after State.reset 0xAFFF).map (fun t => t.I) = some (0xFFF) := by decide

/-- Vector M1b. -/
theorem test_addI_wraps :
    (after ({ withRegs [(2, 0xFF), (15, 7)] with I := 0xFFF }) 0xF21E).map (fun t => (t.I, t.readV 15)) = some ((0x0FE, 7)) := by decide

/-- Vector M2a. -/
theorem test_ldF :
    (after (withRegs [(2, 0x0A)]) 0xF229).map (fun t => t.I) = some (0x032) := by decide

/-- Vector M2b. -/
theorem test_ldF_whole_byte :
    (after (withRegs [(2, 0xFF)]) 0xF229).map (fun t => t.I) = some (0x4FB) := by decide

/-- Vector M3a. -/
theorem test_ldB :
    (after ({ withRegs [(2, 0xFF)] with I := 0x300 }) 0xF233).map (fun t => ([0x300, 0x301, 0x302].map t.readByte, t.I)) = some (([2, 5, 5], 0x300)) := by decide

/-- Vector M3d. -/
theorem test_ldB_into_glyphs :
    (after ({ withRegs [(2, 0x7B)] with I := 0x04E }) 0xF233).map (fun t => [0x04E, 0x04F, 0x050].map t.readByte) = some ([0x80, 0x80, 3]) := by decide

/-- Vector M4b. -/
theorem test_stRegs_count :
    (after ({ withRegs [(0, 0x11), (1, 0x22), (2, 0x33), (3, 0x44)] with I := 0x300 }) 0xF255).map (fun t => ([0x300, 0x301, 0x302, 0x303].map t.readByte, t.I)) = some (([0x11, 0x22, 0x33, 0x00], 0x300)) := by decide

/-- Vector M4a with X = 1 at the last address. -/
theorem test_stRegs_wraps :
    (after ({ withRegs [(0, 0xA0), (1, 0xA1)] with I := 0xFFF }) 0xF155).map (fun t => [0xFFF, 0x000].map t.readByte) = some ([0xA0, 0xF0]) := by decide

/-- Vector M5a. -/
theorem test_ldRegs_glyph :
    (after State.reset 0xF465).map (fun t => [0, 1, 2, 3, 4, 5].map t.readV) = some ([0xF0, 0x90, 0x90, 0x90, 0xF0, 0x00]) := by decide

/-- Vector M5c. -/
theorem test_ldRegs_one :
    (after (withBytes { withRegs [(1, 0x55)] with I := 0x300 } 0x300 [0x77]) 0xF065).map (fun t => (t.readV 0, t.readV 1, t.I)) = some ((0x77, 0x55, 0x300)) := by decide

/-- Vector D2. -/
theorem test_cls :
    (after ({ State.reset with px := flipPixel State.reset.px 3 4 }) 0x00E0).map (fun t => (pixelAt t.px 3 4, t.renderNeeded, t.pc)) = some ((false, true, 0x202)) := by decide

/-- Vector D1. -/
theorem test_drw_zero_rows :
    (after ({ withBytes (withRegs [(0, 5), (15, 1)]) 0x300 [0xFF] with I := 0x300, px := flipPixel State.reset.px 0 0 }) 0xD010).map (fun t => (pixelsSet t [0], t.readV 15, t.renderNeeded)) = some (([(0, 0)], 0, false)) := by decide

/-- Vector D4. -/
theorem test_drw_collides :
    (after ({ withBytes (withRegs [(1, 2)]) 0x300 [0x90] with
      I := 0x300
      px := flipPixel (flipPixel (flipPixel (flipPixel State.reset.px 0 0) 1 0) 2 0) 3 0 }) 0xD121).map (fun t => (pixelsSet t [0], t.readV 15, t.renderNeeded)) = some (([(0, 0), (1, 0), (3, 0), (5, 0)], 1, true)) := by decide

/-- Vector K1. -/
theorem test_skp :
    (after ({ withRegs [(1, 0x15)] with keys := 0x0020 }) 0xE19E).map (fun t => t.pc) = some (0x204) := by decide

/-- Vector K1b. -/
theorem test_sknp :
    (after ({ withRegs [(1, 0x15)] with keys := 0x0020 }) 0xE1A1).map (fun t => t.pc) = some (0x202) := by decide

/-- Vector K2. -/
theorem test_ldVDt :
    (after ({ State.reset with DT := 0x80 }) 0xFF07).map (fun t => t.readV 15) = some (0x80) := by decide

/-- Vector K3. -/
theorem test_ldDtV :
    (after ({ State.reset with DT := 0x09 }) 0xF015).map (fun t => (t.DT, t.pc)) = some ((0, 0x202)) := by decide

/-- Vector K4. -/
theorem test_ldStV :
    (after ({ State.reset with ST := 0x09 }) 0xF218).map (fun t => (t.ST, t.toneActive)) = some ((0, false)) := by decide

/-- Vector K5, first event. -/
theorem test_ldVKey :
    (after ({ State.reset with pc := 0x230, keys := 0x0008 }) 0xF50A).map (fun t => (t.run, t.waitX, t.keysPrev, t.pc)) = some ((.wait, 5, 0x0008, 0x230)) := by decide

/-- Vector U1. -/
theorem test_unknown_word :
    (after State.reset 0x5AB1).map (fun t => (t.pc, t.diag, t.run)) = some ((0x202, [⟨0x200, 0x5AB1⟩], .run)) := by decide

/-! ## Host events, one each -/

/-- `s` with one event scheduled. -/
def withEvent (s : State) (e : HostEvent) : State := { s with pending := [e] }

/-- Vector E2, shortened: the first and the last byte of the program area. -/
theorem test_load :
    (nextOf (step (withEvent State.reset (.load [0x12, 0x00, 0x34])))).map
      (fun t => ([0x200, 0x201, 0x202, 0x203].map t.readByte, t.pc, t.run, t.loadOpen)) =
    some ([0x12, 0x00, 0x34, 0x00], 0x200, .run, false) := by decide

/-- R202: a second `Load` has no meaning. -/
theorem test_load_twice :
    (match step (withEvent { State.reset with loadOpen := false } (.load [])) with
      | .refused r => r == Refusal.loadNotOpen
      | _ => false) = true := by decide

/-- Vectors K7 and K7b. -/
theorem test_tick :
    (nextOf (step (withEvent { State.reset with DT := 1, ST := 0 } .tick))).map (fun t => (t.DT, t.ST)) = some (0, 0) ∧
    (nextOf (step (withEvent { State.reset with DT := 0, ST := 0xFF } .tick))).map (fun t => (t.DT, t.ST, t.toneActive)) =
      some (0, 0xFE, true) := by decide

/-- Vector K8, its first tick: the timers run on in `HALT`. -/
theorem test_tick_halted :
    (nextOf (step (withEvent { State.reset with run := .halt, fault := some .stackOverflow, ST := 2 } .tick))).map
      (fun t => (t.ST, t.run)) = some (1, .halt) := by decide

/-- Vector K9. -/
theorem test_render_ack :
    (nextOf (step (withEvent { State.reset with renderNeeded := true } .renderAck))).map (fun t => t.renderNeeded) =
      some false := by decide

/-- Vector E4: `Reset` out of `HALT`. -/
theorem test_reset :
    (nextOf (step (withEvent { withRegs [(3, 7)] with run := .halt, fault := some .stackOverflow, SP := 16 } .reset))).map
      (fun t => (t.readV 3, t.run, t.fault, t.SP.val)) = some (0, .run, none, 0) := by decide

/-- Vector E1. -/
theorem test_step_halted :
    (nextOf (step (withEvent { State.reset with run := .halt, fault := some .stackOverflow } (.step 0 0)))).map
      (fun t => (t.pc, t.run, t.fault)) = some (0x200, .halt, some .stackOverflow) := by decide

/-- Vector K5, its last event: key 8 goes down while key 3 does so too; the lowest is delivered. -/
theorem test_wait_ends :
    (nextOf (step (withEvent { State.reset with run := .wait, waitX := 5, pc := 0x230 } (.step 0x0108 0)))).map
      (fun t => (t.readV 5, t.pc, t.run)) = some (3, 0x232, .run) := by decide

/-- Vector K6. -/
theorem test_wait_flag_register :
    (nextOf (step (withEvent { State.reset with run := .wait, waitX := 15, pc := 0x230 } (.step 0x8000 0)))).map
      (fun t => (t.readV 15, t.pc, t.run)) = some (0x0F, 0x232, .run) := by decide

/-! ## The parameters (00_scope.md R6, log 32) -/

/-- `s` on a machine built with other parameters. -/
def withParams (s : State) (p : Params) : State := { s with params := p }

/-- Vectors A9b and A11b: `SHIFT_SRC = VX`. -/
theorem test_shifts_source_vx :
    (after (withParams (withRegs [(1, 0x08), (2, 0x05)]) { defaultParams with shiftSrc := .vx }) 0x8126).map
      (fun t => (t.readV 1, t.readV 15)) = some (0x04, 0) ∧
    (after (withParams (withRegs [(1, 0x40), (2, 0x81)]) { defaultParams with shiftSrc := .vx }) 0x812E).map
      (fun t => (t.readV 1, t.readV 15)) = some (0x80, 0) := by decide

/-- R53 to R55 with another `GLYPH_ROM`: `FX65` reads its bytes, a store into it is discarded. -/
theorem test_other_glyph_rom :
    (after (State.resetWith { defaultParams with glyphRom := Vector.replicate 80 0x5A }) 0xF165).map
      (fun t => (t.readV 0, t.readV 1, t.readByte 0x04F, t.readByte 0x050)) = some (0x5A, 0x5A, 0x5A, 0x00) ∧
    (after (State.resetWith { defaultParams with glyphRom := Vector.replicate 80 0x5A }) 0xF055).map
      (fun t => t.readByte 0) = some 0x5A := by decide

/-- R154 with another `KEY_PICK`: keys 3 and 8 go down; a pick that answers 8 for that set, and one that answers a key not down. -/
theorem test_other_key_pick :
    (nextOf (step (withEvent { State.resetWith { defaultParams with keyPick := .table [(0x0108, 8)] } with
        run := .wait, waitX := 5 } (.step 0x0108 0)))).map (fun t => t.readV 5) = some 8 ∧
    (nextOf (step (withEvent { State.resetWith { defaultParams with keyPick := .table [(0x0108, 7)] } with
        run := .wait, waitX := 5 } (.step 0x0108 0)))).map (fun t => t.readV 5) = some 3 := by decide

/-- E4 on a machine with other parameters: `Reset` keeps them. -/
theorem test_reset_keeps_parameters :
    (nextOf (step (withEvent (State.resetWith { defaultParams with shiftSrc := .vx }) .reset))).map (fun t => t.params.shiftSrc) =
      some .vx := by decide

/-! ## Memory keeps its canonical form (log 23) -/

/-- Writing what an unlisted address reads as removes the entry; a write below a listed address goes before it. -/
theorem test_memory_canonical :
    (Memory.write [(0x300, 7)] glyphRom 0x300 0 = []) ∧ (Memory.write [(0x300, 7)] glyphRom 0x2FF 1 = [(0x2FF, 1), (0x300, 7)]) ∧
      (Memory.write [] glyphRom 0x1300 9 = [(0x300, 9)]) ∧ (Memory.write [] glyphRom 0x04F 9 = []) := by decide

/-! ## Every statement's hypotheses are met -/

/-- A state in which the instruction word `w` is next and a `Step` is scheduled. -/
def ready (w : Nat) : State := State.reset.withFetchWord 16 w

theorem witness_EncodedInstructionDecodesBack : (Instr.drw 15 0 15).wellFormed = true := rfl

theorem witness_DecodedWordEncodesBack : decodeWord 0xD125 = some (.drw 1 2 5) := rfl

theorem witness_StepRunsTheDecodedInstruction :
    (ready 0x6005).run = .run ∧
    decode [(ready 0x6005).readByte (ready 0x6005).pc.toNat, (ready 0x6005).readByte ((ready 0x6005).pc.toNat + 1)] =
      .ok (.ldK 0 5, []) ∧
    (ready 0x6005).pending = .step 0 0 :: [] ∧
    ({ ready 0x6005 with pending := [] } : State).pending = [] ∧
    decode [({ ready 0x6005 with pending := [] } : State).readByte 0x200, ({ ready 0x6005 with pending := [] } : State).readByte 0x201] =
      .ok (.ldK 0 5, []) := ⟨rfl, rfl, rfl, rfl, rfl⟩

theorem witness_UnknownWordIsReportedAndSkipped :
    (ready 0x5AB1).run = .run ∧ (ready 0x5AB1).pending = .step 0 0 :: [] ∧
    decode [(ready 0x5AB1).readByte (ready 0x5AB1).pc.toNat, (ready 0x5AB1).readByte ((ready 0x5AB1).pc.toNat + 1)] =
      .error (.unknownWord 0x5AB1) := ⟨rfl, rfl, rfl⟩

/-- A halted core and a `Step`. -/
def halted : State := { State.reset with run := .halt, fault := some .stackOverflow, loadOpen := false, pending := [.step 0xFFFF 0xFF] }

theorem witness_HaltedCoreIgnoresSteps : halted.run = .halt ∧ halted.pending = .step 0xFFFF 0xFF :: [] := ⟨rfl, rfl⟩

/-- A waiting core in whose baseline key 3 is down, and a `Step`. -/
def waiting (keys : BitVec 16) : State :=
  { State.reset with run := .wait, waitX := 5, keysPrev := 0x0008, loadOpen := false, pending := [.step keys 0] }

theorem witness_WaitGoesOnWithoutANewKey :
    (waiting 0x0008).run = .wait ∧ (waiting 0x0008).pending = .step 0x0008 0 :: [] ∧
    ∀ k < 16, (0x0008#16).getLsbD k = true → (waiting 0x0008).keysPrev.getLsbD k = true :=
  ⟨rfl, rfl, by decide⟩

/-- The lowest and the highest key; the default pick, and a table that answers for the set of keys that went down. -/
theorem witness_WaitEndsWithThePickedKey :
    ((waiting 0x8009).run = .wait ∧ (waiting 0x8009).pending = .step 0x8009 0 :: [] ∧ (0x8009#16).getLsbD 0 = true ∧
      (waiting 0x8009).keysPrev.getLsbD 0 = false ∧ (waiting 0x8009).params.keyPick = .lowest) ∧
    ((waiting 0x8008).run = .wait ∧ (waiting 0x8008).pending = .step 0x8008 0 :: [] ∧ (0x8008#16).getLsbD 15 = true ∧
      (waiting 0x8008).keysPrev.getLsbD 15 = false) ∧
    ((withParams (waiting 0x8009) { defaultParams with keyPick := .table [(0x8001, 15)] }).params.keyPick = .table [(0x8001, 15)] ∧
      List.lookup (0x8009#16 &&& ~~~(waiting 0x8009).keysPrev) [(0x8001#16, (15 : Nibble))] = some 15 ∧
      (0x8009#16).getLsbD 15 = true ∧ (waiting 0x8009).keysPrev.getLsbD 15 = false) :=
  ⟨⟨rfl, rfl, rfl, rfl, rfl⟩, ⟨rfl, rfl, rfl, rfl⟩, rfl, by decide, rfl, rfl⟩

theorem witness_TickCountsBothTimersDown : (withEvent State.reset .tick).pending = .tick :: [] := rfl

theorem witness_RenderAckClearsTheSignal : (withEvent State.reset .renderAck).pending = .renderAck :: [] := rfl

/-- The empty program and one that fills the memory. -/
theorem witness_LoadCopiesTheProgram :
    ((withEvent State.reset (.load [])).pending = .load [] :: [] ∧ (withEvent State.reset (.load [])).loadOpen = true ∧
      ([] : List Byte).length ≤ 3584) ∧
    ((withEvent State.reset (.load (List.replicate 3584 1))).pending = .load (List.replicate 3584 1) :: [] ∧
      (withEvent State.reset (.load (List.replicate 3584 1))).loadOpen = true ∧ (List.replicate 3584 (1 : Byte)).length ≤ 3584) :=
  ⟨⟨rfl, rfl, by decide⟩, rfl, rfl, by rw [List.length_replicate]⟩

/-- A load one byte too long. -/
def tooLong : State := withEvent State.reset (.load (List.replicate 3585 1))

theorem witness_LoadOverCapacityHalts :
    tooLong.pending = .load (List.replicate 3585 1) :: [] ∧ tooLong.loadOpen = true ∧ 3584 < (List.replicate 3585 (1 : Byte)).length :=
  ⟨rfl, rfl, by rw [List.length_replicate]; decide⟩

theorem witness_ResetEventRestoresEveryElement : (withEvent halted .reset).pending = .reset :: [] := rfl

theorem witness_UnscriptedTurnIsTicksAckAndStep : State.reset.pending = [] := rfl

theorem witness_CallPushesTheReturnAddress :
    State.reset.SP.val = (0 : Fin 16).val ∧ ({ State.reset with SP := 15 } : State).SP.val = (15 : Fin 16).val := ⟨rfl, rfl⟩

theorem witness_ReturnPopsTheTarget :
    ({ State.reset with SP := 1 } : State).SP.val = (0 : Fin 16).val + 1 ∧
      ({ State.reset with SP := 16 } : State).SP.val = (15 : Fin 16).val + 1 := ⟨rfl, rfl⟩

theorem witness_StackFaultsHaltPrecisely :
    ({ State.reset with SP := 16 } : State).SP.val = 16 ∧ State.reset.SP.val = 0 := ⟨rfl, rfl⟩

theorem witness_ReturnUndoesACall :
    ∃ t, ({ State.reset with SP := 15 } : State).SP.val < 16 ∧ exec (.call 0x300) { State.reset with SP := 15 } = .next t :=
  ⟨_, by decide, rfl⟩

/-- The states of F1: each is the call of 0x200 from the one before. -/
def calls : Nat → State
  | 0 => State.reset
  | k + 1 => (nextOf (exec (.call 0x200) (calls k))).getD (calls k)

theorem calls_next (k : Nat) : exec (.call 0x200) (calls k) = .next (calls (k + 1)) := by
  obtain ⟨t, h⟩ := exec_answers (.call 0x200) (calls k)
  simp only [calls, h, nextOf, Option.getD_some]

theorem witness_SeventeenthCallOverflows :
    (calls 0).SP.val = 0 ∧ (calls 0).run = .run ∧ ∀ k ≤ 16, exec (.call 0x200) (calls k) = .next (calls (k + 1)) :=
  ⟨rfl, rfl, fun k _ => calls_next k⟩

/-- A destination that is not the flag register, for the result clauses of the six flag-writing forms. -/
theorem witness_AddSetsCarryAndWraps : (14 : Nibble) ≠ 15 ∧ (0 : Nibble) ≠ 15 := by decide

/-- Each of the three digits: at the first address above the glyph table, and across the end of memory. -/
theorem witness_DecimalDigitsAreStored :
    (∀ k < 3, 0x50 ≤ ({ State.reset with I := 0x50 } : State).dataAddr k % 4096) ∧
    (0xFFF % 4096 = ({ State.reset with I := 0xFFF } : State).dataAddr 0 % 4096 ∧ 0x50 ≤ 0xFFF % 4096) ∧
    (0xFFF % 4096 = ({ State.reset with I := 0xFFE } : State).dataAddr 1 % 4096) ∧
    (0xFFF % 4096 = ({ State.reset with I := 0xFFD } : State).dataAddr 2 % 4096) := by decide

theorem witness_RegisterBlockIsStored :
    (15 : Nibble) ≤ 15 ∧ 0xFFF % 4096 = ({ State.reset with I := 0xFF0 } : State).dataAddr (15 : Nibble).toNat % 4096 ∧
      0x50 ≤ 0xFFF % 4096 := by decide

theorem witness_BlockStoreThenLoadRestores :
    ∃ t u, 0x50 ≤ ({ State.reset with I := 0xFF0 } : State).I.toNat ∧
      ({ State.reset with I := 0xFF0 } : State).I.toNat + (15 : Nibble).toNat < 4096 ∧
      exec (.stRegs 15) { State.reset with I := 0xFF0 } = .next t ∧ exec (.ldRegs 15) t = .next u :=
  ⟨_, _, by decide, by decide, rfl, rfl⟩

/-- Program P7's store: `ST_REGS` into the word after itself, both bytes; and `LD_B`, its first and its last digit. -/
theorem witness_StoreIsSeenByTheNextFetch :
    (∃ t, exec (.stRegs 1) { State.reset with pc := 0x206, I := 0x208 } = .next t ∧ (0 : Nibble) ≤ 1 ∧ (1 : Nibble) ≤ 1 ∧
      0x208 % 4096 = t.pc.toNat ∧ 0x209 % 4096 = t.pcPlus 1) ∧
    (0x50 ≤ ({ State.reset with pc := 0x206, I := 0x208 } : State).dataAddr (0 : Nibble).toNat % 4096 ∧
      0x50 ≤ ({ State.reset with pc := 0x206, I := 0x208 } : State).dataAddr (1 : Nibble).toNat % 4096) ∧
    (∃ t, exec (.ldB 0) { State.reset with pc := 0x4E, I := 0x50 } = .next t ∧ 0x50 % 4096 = t.pc.toNat ∧
      0x50 ≤ ({ State.reset with pc := 0x4E, I := 0x50 } : State).dataAddr 0 % 4096) ∧
    ∃ t, exec (.ldB 0) { State.reset with pc := 0xFFC, I := 0xFFD } = .next t ∧ 0xFFF % 4096 = t.pcPlus 1 ∧
      0x50 ≤ ({ State.reset with pc := 0xFFC, I := 0xFFD } : State).dataAddr 2 % 4096 :=
  ⟨⟨_, rfl, by decide, by decide, rfl, rfl⟩, by decide, ⟨_, rfl, rfl, by decide⟩, _, rfl, rfl, by decide⟩

/-- Both sources, `X` different from `Y`; and a shift with `X = Y`. -/
theorem witness_ShiftsMoveTheirSourceByOne :
    (2 : Nibble) = (if State.reset.params.shiftSrc = .vx then 1 else 2) ∧
    (1 : Nibble) = (if (State.resetWith { defaultParams with shiftSrc := .vx }).params.shiftSrc = .vx then 1 else 2) := by decide

theorem witness_ShiftSourceMattersOnlyForDistinctRegisters :
    (∃ t, (∀ x y, Instr.shr 3 3 = .shr x y ∨ Instr.shr 3 3 = .shl x y → x = y) ∧ exec (.shr 3 3) State.reset = .next t) ∧
    (∃ t, (∀ x y, Instr.cls = .shr x y ∨ Instr.cls = .shl x y → x = y) ∧ exec .cls State.reset = .next t) ∧
    (State.resetWith { defaultParams with shiftSrc := .vx }).params.shiftSrc = .vx := by
  refine ⟨⟨_, fun x y h => ?_, rfl⟩, ⟨_, fun x y h => ?_, rfl⟩, rfl⟩
  · rcases h with h | h
    · injection h with h1 h2
      rw [← h1, ← h2]
    · nomatch h
  · rcases h with h | h <;> nomatch h

/-- The clauses about the other instructions: one that is not `LD_V_DT`. -/
theorem witness_TimersAreReadAndSet :
    ∃ t, exec (.ldDtV 3) State.reset = .next t ∧ ∀ x, Instr.ldDtV 3 ≠ .ldVDt x := ⟨_, rfl, fun _ h => nomatch h⟩

theorem witness_CanonicalMemoriesThatReadAlikeAreEqual :
    Memory.wf [(0x050, 1), (0xFFF, 2)] glyphRom ∧
      ∀ a < 4096, Memory.read [(0x050, 1), (0xFFF, 2)] glyphRom a = Memory.read [(0x050, 1), (0xFFF, 2)] glyphRom a :=
  ⟨by decide, fun _ _ => rfl⟩

/-- The tallest sprite; a covered pixel, that was set and that was not; a pixel not covered. -/
theorem witness_DrawSpriteFlipsTheCoveredPixels :
    (List.replicate 15 (0x80 : Byte)).length ≤ 15 ∧ spriteCovers 63 31 [0x80] 63 31 ∧ ¬ spriteCovers 63 31 [] 63 31 ∧
      (spriteCovers 63 31 [0x80] 63 31 ∧ pixelAt (flipPixel State.reset.px 63 31) 63 31 = true) := by
  have hc : spriteCovers 63 31 [0x80] 63 31 := ⟨0, 0, by decide, ⟨0x80, rfl, rfl⟩, rfl, rfl⟩
  exact ⟨by decide, hc, fun ⟨_, _, _, ⟨_, h, _⟩, _⟩ => (nomatch h), hc, by decide⟩

/-- No row, and a row at the last address; for the latter a covered pixel that is unset and one that is set. -/
theorem witness_DrawFlipsPixelsAndReportsCollision :
    ([] : List Byte).length = (0 : Nibble).toNat ∧
    ([0x00] : List Byte).length = (1 : Nibble).toNat ∧
    (∀ k (h : k < ([0x00] : List Byte).length),
      ([0x00] : List Byte)[k] = ({ State.reset with I := 0xFFF } : State).readByte (({ State.reset with I := 0xFFF } : State).dataAddr k)) := by
  refine ⟨rfl, rfl, fun k h => ?_⟩
  have : k = 0 := by simpa using h
  subst this
  rfl

/-- A sprite drawn over a set pixel reports the collision, one drawn over a blank display does not. -/
theorem witness_DrawFlipsPixelsAndReportsCollision_clauses :
    (∃ u v, spriteCovers 5 0 [0xF0] u v ∧ pixelAt (flipPixel State.reset.px 5 0) u v = true) ∧
    (¬ ∃ u v, spriteCovers 5 0 [0xF0] u v ∧ pixelAt State.reset.px u v = true) ∧
    (∃ row ∈ ([0xF0] : List Byte), row ≠ 0) ∧ (∀ row ∈ ([0x00] : List Byte), row = 0) := by
  refine ⟨⟨5, 0, ⟨0, 0, by decide, ⟨0xF0, rfl, rfl⟩, rfl, rfl⟩, by decide⟩, ?_, by decide, by decide⟩
  rintro ⟨u, v, -, h⟩
  have : pixelAt State.reset.px u v = false := by simp [State.reset, pixelAt]
  rw [this] at h
  cases h

theorem witness_DrawingTwiceRestoresTheBuffer :
    (List.replicate 15 (0xFF : Byte)).length ≤ 15 ∧ ∀ x y, spriteCovers 60 31 [0xFF] x y → pixelAt State.reset.px x y = false :=
  ⟨by decide, fun x y _ => by simp [State.reset, pixelAt]⟩

theorem reset_inv : State.reset.Inv :=
  ⟨by decide, by decide, by decide, by decide, by decide, by decide, fun _ => rfl⟩

theorem witness_EveryStepKeepsTheInvariant : ∃ t, State.reset.Inv ∧ step State.reset = .next t := by
  obtain ⟨t, h⟩ := runCycle_answers State.reset.hostTurn
  exact ⟨t, reset_inv, h⟩

theorem witness_EveryStepAnswers :
    (∃ t, step State.reset = .next t) ∧
    ((withEvent halted (.load [])).loadOpen = false ∧ ∃ bytes rest, (withEvent halted (.load [])).pending = .load bytes :: rest) :=
  ⟨runCycle_answers State.reset.hostTurn, rfl, [], [], rfl⟩

/-- A store aimed at the last byte of the glyph table. -/
theorem witness_NoInstructionAltersTheGlyphTable :
    ∃ t, 0x4F % 4096 < 0x50 ∧ exec (.stRegs 0) { State.reset with I := 0x4F } = .next t := ⟨_, by decide, rfl⟩

theorem witness_StateElementsHaveNamedWriters :
    ∃ t, exec (.ldB 2) State.reset = .next t := ⟨_, rfl⟩

/-- One of the six; one that is none of them and whose destination is not `VF`. -/
theorem witness_OnlySixFormsWriteTheFlag :
    (∃ t, exec (.addV 15 15) State.reset = .next t ∧ ∃ x y, Instr.addV 15 15 = .addV x y) ∧
    ∃ t, exec (.ldRegs 14) State.reset = .next t ∧
      (¬ ∃ x y, Instr.ldRegs 14 = .addV x y ∨ Instr.ldRegs 14 = .sub x y ∨ Instr.ldRegs 14 = .shr x y ∨
        Instr.ldRegs 14 = .subn x y ∨ Instr.ldRegs 14 = .shl x y ∨ ∃ n, Instr.ldRegs 14 = .drw x y n) ∧
      ¬ ((∃ kk, Instr.ldRegs 14 = .ldK 15 kk ∨ Instr.ldRegs 14 = .addK 15 kk ∨ Instr.ldRegs 14 = .rnd 15 kk) ∨
        (∃ y, Instr.ldRegs 14 = .ldV 15 y ∨ Instr.ldRegs 14 = .orV 15 y ∨ Instr.ldRegs 14 = .andV 15 y ∨
          Instr.ldRegs 14 = .xorV 15 y) ∨ Instr.ldRegs 14 = .ldVDt 15 ∨ Instr.ldRegs 14 = .ldRegs 15) :=
  ⟨⟨_, rfl, 15, 15, rfl⟩, _, rfl, by simp, by simp⟩

theorem step_tooLong (bytes : List Byte) (h : ¬ bytes.length ≤ 3584) :
    ∃ t, step (withEvent State.reset (.load bytes)) = .next t ∧ t.run = .halt := by
  have hs : step (withEvent State.reset (.load bytes)) = State.load State.reset bytes := rfl
  rw [hs, State.load, if_pos (by rfl), if_neg h]
  exact ⟨_, rfl, rfl⟩

/-- The three ways into `HALT`. -/
theorem witness_HaltIsEnteredOnlyByTheFatalConditions :
    (∃ t, step { ready 0x2300 with SP := 16 } = .next t ∧ ({ ready 0x2300 with SP := 16 } : State).run ≠ .halt ∧ t.run = .halt) ∧
    (∃ t, step (ready 0x00EE) = .next t ∧ (ready 0x00EE).run ≠ .halt ∧ t.run = .halt) ∧
    ∃ t, step tooLong = .next t ∧ tooLong.run ≠ .halt ∧ t.run = .halt := by
  refine ⟨⟨_, rfl, by decide, rfl⟩, ⟨_, rfl, by decide, rfl⟩, ?_⟩
  obtain ⟨t, h, hr⟩ := step_tooLong (List.replicate 3585 1) (by rw [List.length_replicate]; decide)
  exact ⟨t, h, fun h => (nomatch h), hr⟩

theorem halted_inv : halted.Inv :=
  ⟨by decide, by decide, by decide, by decide, by decide, by decide, fun h => nomatch h⟩

theorem witness_HaltIsLeftOnlyByReset :
    (∃ t, halted.Inv ∧ step halted = .next t ∧ halted.run = .halt) ∧
    ∃ t, (withEvent halted .reset).Inv ∧ step (withEvent halted .reset) = .next t ∧ (withEvent halted .reset).run = .halt :=
  ⟨⟨_, halted_inv, rfl, rfl⟩, _,
    ⟨halted_inv.pc_lt, halted_inv.i_lt, halted_inv.stack_lt, halted_inv.glyph, halted_inv.fault_iff, halted_inv.mem_wf,
      halted_inv.load_open⟩, rfl, rfl⟩

theorem waiting_inv (keys : BitVec 16) : (waiting keys).Inv :=
  ⟨reset_inv.pc_lt, reset_inv.i_lt, reset_inv.stack_lt, reset_inv.glyph, ⟨fun h => absurd rfl h, fun h => nomatch h⟩, reset_inv.mem_wf,
    fun h => nomatch h⟩

theorem ready_key_inv : (ready 0xF50A).Inv :=
  ⟨by decide, by decide, by decide, by decide, by decide, by decide, fun _ => rfl⟩

/-- Into `WAIT`, and out of it by a key. -/
theorem witness_WaitIsEnteredByTheKeyInstructionOnly :
    (∃ t, (ready 0xF50A).Inv ∧ step (ready 0xF50A) = .next t ∧ (ready 0xF50A).run ≠ .wait ∧ t.run = .wait) ∧
    ∃ t, (waiting 0x8008).Inv ∧ step (waiting 0x8008) = .next t ∧ (waiting 0x8008).run = .wait ∧ t.run ≠ .wait :=
  ⟨⟨_, ready_key_inv, rfl, by decide, rfl⟩, _, waiting_inv _, rfl, rfl, by decide⟩

/-- A `Step` that reports, with an event scheduled and (from reset memory, whose word at 0x200 is 0x0000) without; an event that does not. -/
theorem witness_AtMostOneReportAStep :
    (∃ t, step (ready 0x5AB1) = .next t ∧ (ready 0x5AB1).run = .run ∧ decodeWord (ready 0x5AB1).fetchWord = none ∧
      ∃ keys rnd rest, (ready 0x5AB1).pending = .step keys rnd :: rest) ∧
    (∃ t, step State.reset = .next t ∧ State.reset.run = .run ∧ decodeWord State.reset.fetchWord = none ∧ State.reset.pending = []) ∧
    ∃ t, step halted = .next t ∧ ¬ halted.run = .run := by
  obtain ⟨t, h⟩ := runCycle_answers State.reset.hostTurn
  exact ⟨⟨_, rfl, rfl, rfl, _, _, _, rfl⟩, ⟨t, h, rfl, rfl, rfl⟩, _, rfl, by decide⟩

/-- The clauses of the tone's edges: an instruction that is not `LD_ST_V`, `LD_ST_V` both ways, a `Load`. -/
theorem witness_ToneEdgesComeFromNamedEvents :
    (∃ t, exec .cls State.reset = .next t ∧ ∀ x, Instr.cls ≠ .ldStV x) ∧
    (∃ t, exec (.ldStV 0) (withRegs [(0, 9)]) = .next t ∧ (withRegs [(0, 9)]).ST = 0 ∧ (withRegs [(0, 9)]).readV 0 ≠ 0) ∧
    (∃ t, exec (.ldStV 0) { State.reset with ST := 1 } = .next t ∧ ({ State.reset with ST := 1 } : State).ST ≠ 0 ∧
      ({ State.reset with ST := 1 } : State).readV 0 = 0) ∧
    ∃ t, State.reset.load [] = .next t :=
  ⟨⟨_, rfl, fun _ h => nomatch h⟩, ⟨_, rfl, rfl, by decide⟩, ⟨_, rfl, by decide, rfl⟩, _, rfl⟩

theorem witness_FinishedProgramStaysFinished :
    (ready 0x1200).finished ∧ (ready 0x1200).pending = .step 0 0 :: [] := ⟨⟨rfl, 0x200, rfl, rfl⟩, rfl⟩

theorem witness_SoundTimerAndSignalAreInvisible : ∃ t, Sys2Proof.core.run 1 (ready 0x00E0) = .next t := ⟨_, rfl⟩

end Sys2Proof.Tests
end

section
/-!
PROOFS. The memory family (20_memory.md): the word `Fetch` reads.
-/

namespace Sys2Proof.Machine

open Sys2Proof

/-- A byte read masks its address, so masking it beforehand changes nothing (20_memory.md R51). -/
@[simp] theorem State.readByte_mod (s : State) (a : Nat) : s.readByte (a % 4096) = s.readByte a :=
  Memory.read_maskAddr s.mem a

/-- Settles O6: the word is made of the bytes at `pc` and `pc + 1`, and each byte read masks its own address. -/
theorem fetchIsTwoBytesHighFirst : Obligations.FetchIsTwoBytesHighFirst := by
  intro s
  rw [State.readByte_mod, fetchWord_eq, toNat_wordOfBytes]

end Sys2Proof.Machine
end

section
/-!
PROOFS. The flow family (41_flow.md): the two jumps, and the frame of every write of `pc`.
-/

namespace Sys2Proof.Machine

open Sys2Proof

/-- A write of `pc` leaves every other element of the state as it was. -/
theorem State.setPc_changesOnly_pc (s : State) (a : Nat) : changesOnly (fun e => e = .pc) s (s.setPc a) := by
  intro e he
  cases e with
  | pc => exact absurd rfl he
  | ports => exact ⟨rfl, rfl, rfl, rfl, rfl, rfl⟩
  | _ => rfl

theorem exec_jp (nnn : BitVec 12) (s : State) : exec (.jp nnn) s = .next (s.setPc nnn.toNat) := rfl

theorem exec_jpV0 (nnn : BitVec 12) (s : State) :
    exec (.jpV0 nnn) s = .next (s.setPc ((s.readV 0).toNat + nnn.toNat)) := rfl

/-- Settles O19: the word is the one the encoder gives, and a 12-bit target is stored as it is, below 4096. -/
theorem jumpGoesToItsTarget : Obligations.JumpGoesToItsTarget := by
  intro s nnn
  have hpc : (s.setPc nnn.toNat).pc.toNat = nnn.toNat := by
    rw [State.toNat_pc_setPc, memSize_eq, Nat.mod_eq_of_lt nnn.isLt]
  exact ⟨Laws.RoundTrip.jp nnn, _, exec_jp nnn s, hpc, s.setPc_changesOnly_pc _⟩

/-- Settles O20: the word is the one the encoder gives, and the sum is stored modulo 4096, as every write of `pc` is. -/
theorem offsetJumpAddsRegisterZero : Obligations.OffsetJumpAddsRegisterZero := by
  intro s nnn
  exact ⟨Laws.RoundTrip.jpV0 nnn, _, exec_jpV0 nnn s, s.toNat_pc_setPc _, s.setPc_changesOnly_pc _⟩

end Sys2Proof.Machine
end

section
/-!
PROOFS. The display family (44_display.md): what drawing a bit, a row and a sprite does to a canvas (R142).
-/

namespace Sys2Proof.Machine

open Sys2Proof

/-- Drawing leads from `k` to `k'` by flipping exactly the pixels of `C`, with collision and change reported (R142). -/
structure Canvas.Flips (C : Nat → Nat → Prop) (k k' : Canvas) : Prop where
  covered : ∀ x y, C x y → pixelAt k'.px x y = !pixelAt k.px x y
  kept : ∀ x y, ¬ C x y → pixelAt k'.px x y = pixelAt k.px x y
  collision : k'.collision = true ↔ k.collision = true ∨ ∃ x y, C x y ∧ pixelAt k.px x y = true
  changed : k'.changed = true ↔ k.changed = true ∨ ∃ x y, C x y

/-- Drawing nothing flips no pixel. -/
theorem Canvas.Flips.refl {C : Nat → Nat → Prop} (k : Canvas) (hC : ∀ x y, ¬ C x y) : Canvas.Flips C k k where
  covered x y h := absurd h (hC x y)
  kept _ _ _ := rfl
  collision := by simp [hC]
  changed := by simp [hC]

/-- Two drawings one after the other flip the pixels of both, when no pixel is in both: a pixel of the second is then still as it was
before the first. -/
theorem Canvas.Flips.trans {C D E : Nat → Nat → Prop} {k k' k'' : Canvas} (h : Canvas.Flips C k k') (h' : Canvas.Flips D k' k'')
    (hdisj : ∀ x y, C x y → ¬ D x y) (hE : ∀ x y, E x y ↔ C x y ∨ D x y) : Canvas.Flips E k k'' where
  covered x y hxy := by
    rcases (hE x y).mp hxy with hC | hD
    · rw [h'.kept x y (hdisj x y hC), h.covered x y hC]
    · rw [h'.covered x y hD, h.kept x y fun hC => hdisj x y hC hD]
  kept x y hxy := by
    obtain ⟨hC, hD⟩ := not_or.mp (mt (hE x y).mpr hxy)
    rw [h'.kept x y hD, h.kept x y hC]
  collision := by
    have hold : ∀ x y, (D x y ∧ pixelAt k'.px x y = true) ↔ (D x y ∧ pixelAt k.px x y = true) := fun x y =>
      and_congr_right fun hD => by rw [h.kept x y fun hC => hdisj x y hC hD]
    simp only [h'.collision, h.collision, hold, hE, or_and_right, exists_or, or_assoc]
  changed := by simp only [h'.changed, h.changed, hE, exists_or, or_assoc]

/-- Coordinates that wrap alike name one pixel. -/
theorem pixelAt_congr (px : Pixels) {x y u v : Nat} (hx : x % 64 = u % 64) (hy : y % 32 = v % 32) :
    pixelAt px x y = pixelAt px u v := by
  rw [← pixelAt_wrap, hx, hy, pixelAt_wrap]

/-- Column `c` of a single row hits the pixel its coordinates wrap to, when the bit is set. -/
theorem spriteHits_singleton (x0 y : Nat) (row : Byte) (u v c : Nat) :
    spriteHits x0 y [row] u v 0 c ↔
      c < 8 ∧ row.getLsbD (7 - c) = true ∧ (x0 + c) % 64 = u % 64 ∧ y % 32 = v % 32 := by
  simp [spriteHits]

/-- A sprite covers what its first row covers and what the other rows cover one line below. -/
theorem spriteCovers_cons (x0 y : Nat) (row : Byte) (rows : List Byte) (u v : Nat) :
    spriteCovers x0 y (row :: rows) u v ↔ (∃ c, spriteHits x0 y [row] u v 0 c) ∨ spriteCovers x0 (y + 1) rows u v := by
  have hnext : ∀ r c, spriteHits x0 y (row :: rows) u v (r + 1) c ↔ spriteHits x0 (y + 1) rows u v r c := fun r c => by
    simp [spriteHits, Nat.add_right_comm, ← Nat.add_assoc]
  constructor
  · rintro ⟨_ | r, c, h⟩
    · exact .inl ⟨c, by simpa [spriteHits] using h⟩
    · exact .inr ⟨r, c, (hnext r c).mp h⟩
  · rintro (⟨c, h⟩ | ⟨r, c, h⟩)
    · exact ⟨0, c, by simpa [spriteHits] using h⟩
    · exact ⟨r + 1, c, (hnext r c).mpr h⟩

/-- One bit flips the pixel it hits, if it is set. -/
theorem flips_drawBit (x0 y : Nat) (row : Byte) (k : Canvas) {c : Nat} (hc : c < 8) :
    Canvas.Flips (fun u v => spriteHits x0 y [row] u v 0 c) k (drawBit x0 y row k c) := by
  obtain ⟨hcollision, hchanged⟩ := flags_drawBit x0 y row k c
  constructor
  case covered =>
    intro u v h
    obtain ⟨-, hbit, hx, hy⟩ := (spriteHits_singleton ..).mp h
    simp [pixelAt_drawBit, hbit, hx, hy]
  case kept =>
    intro u v h
    have hmiss : (row.getLsbD (7 - c) && decide ((x0 + c) % 64 = u % 64 ∧ y % 32 = v % 32)) = false := by
      simpa [spriteHits_singleton, hc] using h
    rw [pixelAt_drawBit, hmiss, Bool.xor_false]
  case collision =>
    rw [hcollision, Bool.or_eq_true, Bool.and_eq_true]
    refine or_congr_right ⟨fun ⟨hbit, hset⟩ => ⟨x0 + c, y, (spriteHits_singleton ..).mpr ⟨hc, hbit, rfl, rfl⟩, hset⟩, ?_⟩
    rintro ⟨u, v, h, hset⟩
    obtain ⟨-, hbit, hx, hy⟩ := (spriteHits_singleton ..).mp h
    exact ⟨hbit, by rwa [pixelAt_congr k.px hx hy]⟩
  case changed =>
    rw [hchanged, Bool.or_eq_true]
    refine or_congr_right ⟨fun hbit => ⟨x0 + c, y, (spriteHits_singleton ..).mpr ⟨hc, hbit, rfl, rfl⟩⟩, ?_⟩
    rintro ⟨u, v, h⟩
    obtain ⟨-, hbit, -, -⟩ := (spriteHits_singleton ..).mp h
    exact hbit

/-- The columns of one row, drawn in any order and each once: no two of them hit one pixel. -/
theorem flips_foldl_drawBit (x0 y : Nat) (row : Byte) (cs : List Nat) (hcs : ∀ c ∈ cs, c < 8) (hnodup : cs.Nodup) (k : Canvas) :
    Canvas.Flips (fun u v => ∃ c ∈ cs, spriteHits x0 y [row] u v 0 c) k (cs.foldl (drawBit x0 y row) k) := by
  induction cs generalizing k with
  | nil => exact .refl k (by simp)
  | cons c cs ih =>
    obtain ⟨hc, hcs⟩ := List.forall_mem_cons.mp hcs
    obtain ⟨hnew, hnodup⟩ := List.nodup_cons.mp hnodup
    refine (flips_drawBit x0 y row k hc).trans (ih hcs hnodup _) ?_ (by simp)
    rintro u v h ⟨d, hd, h'⟩
    obtain ⟨-, -, hx, -⟩ := (spriteHits_singleton ..).mp h
    obtain ⟨hd8, -, hx', -⟩ := (spriteHits_singleton ..).mp h'
    have : c = d := by omega
    exact hnew (this ▸ hd)

/-- One row flips the pixels its set bits hit. -/
theorem flips_drawRow (x0 y : Nat) (row : Byte) (k : Canvas) :
    Canvas.Flips (fun u v => ∃ c, spriteHits x0 y [row] u v 0 c) k (drawRow x0 y row k) := by
  have hcolumns : ∀ u v, (∃ c, spriteHits x0 y [row] u v 0 c) ↔ ∃ c ∈ List.range 8, spriteHits x0 y [row] u v 0 c := fun u v =>
    exists_congr fun c => by simp [spriteHits]
  simp only [hcolumns]
  exact flips_foldl_drawBit x0 y row (List.range 8) (fun c => List.mem_range.mp) List.nodup_range k

/-- Up to 32 rows flip the pixels they cover: no two of them wrap to one line. -/
theorem flips_drawRows (x0 y : Nat) (rows : List Byte) (hlen : rows.length ≤ 32) (k : Canvas) :
    Canvas.Flips (spriteCovers x0 y rows) k (drawRows x0 y rows k) := by
  induction rows generalizing y k with
  | nil => exact .refl k (by simp [spriteCovers, spriteHits])
  | cons row rows ih =>
    rw [List.length_cons] at hlen
    refine (flips_drawRow x0 y row k).trans (ih (y + 1) (by omega) _) ?_ (spriteCovers_cons x0 y row rows)
    rintro u v ⟨c, h⟩ ⟨r, d, -, ⟨row', hrow, -⟩, -, hy'⟩
    obtain ⟨-, -, -, hy⟩ := (spriteHits_singleton ..).mp h
    obtain ⟨hr, -⟩ := List.getElem?_eq_some_iff.mp hrow
    omega

/-- A sprite of up to 15 rows flips the pixels it covers, starting from a canvas with nothing reported. -/
theorem flips_drawSprite (x0 y0 : Nat) (rows : List Byte) (hlen : rows.length ≤ 15) (px : Pixels) :
    Canvas.Flips (spriteCovers x0 y0 rows) { px := px, collision := false, changed := false } (drawSprite x0 y0 rows px) :=
  flips_drawRows x0 y0 rows (by omega) _

/-- Settles O42: by induction on the rows, and in each row on its columns, no pixel is flipped twice. -/
theorem drawSpriteFlipsTheCoveredPixels : Obligations.DrawSpriteFlipsTheCoveredPixels := by
  intro x0 y0 rows px hlen
  obtain ⟨hcovered, hkept, hcollision, hchanged⟩ := flips_drawSprite x0 y0 rows hlen px
  exact ⟨hcovered, hkept, by simpa using hcollision, by simpa using hchanged⟩

end Sys2Proof.Machine
end

section
/-!
PROOFS. The exceptions family (60_exceptions.md): the event `Tick` (R181).
-/

namespace Sys2Proof.Machine

open Sys2Proof

/-- A scheduled `Tick` counts in the state that has it no longer pending, whatever `run` is (60_exceptions.md R181). -/
theorem step_of_tick {s : State} {rest : List HostEvent} (h : s.pending = .tick :: rest) :
    step s = .next { s with pending := rest }.tick :=
  step_of_pending h

/-- The two cases of R181: truncated subtraction keeps a timer at zero. -/
theorem toNat_timerTick_eq_ite (t : Byte) : (timerTick t).toNat = if 0 < t.toNat then t.toNat - 1 else 0 := by
  rw [toNat_timerTick]
  split
  next => rfl
  next h => omega

/-- Settles O12: the step is `State.tick`, which writes the two timers and no other field. -/
theorem tickCountsBothTimersDown : Obligations.TickCountsBothTimersDown := by
  intro s rest hp
  exact ⟨_, step_of_tick hp, toNat_timerTick_eq_ite s.DT, toNat_timerTick_eq_ite s.ST, rfl⟩

end Sys2Proof.Machine
end

section
/-!
PROOFS. The encoding (30_encoding.md): the decoder and the encoder undo each other, and both agree with the opcode map by match and
mask (R74) and with the list of unknown words (R76).
-/

namespace Sys2Proof

/-! ## From the instruction to its bytes and back -/

/-- The word the encoder gives an instruction is decoded as that instruction. -/
theorem decodeWord_encodeWord : ∀ i : Instr, decodeWord (encodeWord i) = some i
  | .cls => Laws.RoundTrip.cls
  | .ret => Laws.RoundTrip.ret
  | .jp nnn => Laws.RoundTrip.jp nnn
  | .call nnn => Laws.RoundTrip.call nnn
  | .seK x kk => Laws.RoundTrip.seK x kk
  | .sneK x kk => Laws.RoundTrip.sneK x kk
  | .seV x y => Laws.RoundTrip.seV x y
  | .ldK x kk => Laws.RoundTrip.ldK x kk
  | .addK x kk => Laws.RoundTrip.addK x kk
  | .ldV x y => Laws.RoundTrip.ldV x y
  | .orV x y => Laws.RoundTrip.orV x y
  | .andV x y => Laws.RoundTrip.andV x y
  | .xorV x y => Laws.RoundTrip.xorV x y
  | .addV x y => Laws.RoundTrip.addV x y
  | .sub x y => Laws.RoundTrip.sub x y
  | .shr x y => Laws.RoundTrip.shr x y
  | .subn x y => Laws.RoundTrip.subn x y
  | .shl x y => Laws.RoundTrip.shl x y
  | .sneV x y => Laws.RoundTrip.sneV x y
  | .ldI nnn => Laws.RoundTrip.ldI nnn
  | .jpV0 nnn => Laws.RoundTrip.jpV0 nnn
  | .rnd x kk => Laws.RoundTrip.rnd x kk
  | .drw x y n => Laws.RoundTrip.drw x y n
  | .skp x => Laws.RoundTrip.skp x
  | .sknp x => Laws.RoundTrip.sknp x
  | .ldVDt x => Laws.RoundTrip.ldVDt x
  | .ldVKey x => Laws.RoundTrip.ldVKey x
  | .ldDtV x => Laws.RoundTrip.ldDtV x
  | .ldStV x => Laws.RoundTrip.ldStV x
  | .addI x => Laws.RoundTrip.addI x
  | .ldF x => Laws.RoundTrip.ldF x
  | .ldB x => Laws.RoundTrip.ldB x
  | .stRegs x => Laws.RoundTrip.stRegs x
  | .ldRegs x => Laws.RoundTrip.ldRegs x

/-- Settles O1: the two bytes put together are the encoded word, and the decoder looks at no byte after them. -/
theorem encodedInstructionDecodesBack : Obligations.EncodedInstructionDecodesBack := by
  intro i rest _
  have hword : decodeWord (wordOfBytes (highByte (encodeWord i)) (lowByte (encodeWord i))) = some i := by
    rw [wordOfBytes_bytes, decodeWord_encodeWord]
  exact decode_cons_cons _ _ rest hword

/-! ## A word with a form's fixed digits is the form's word for its own operand fields -/

theorem wordNNN_eq_iff {w : Word} {op : Nibble} : wordNNN op (fieldNNN w) = w ↔ fieldOP w = op := by
  refine ⟨fun h => ?_, fun h => h ▸ wordNNN_fields w⟩
  rw [← h, fieldOP_wordNNN]

theorem wordXKK_eq_iff {w : Word} {op : Nibble} {kk : Byte} :
    wordXKK op (fieldX w) kk = w ↔ fieldOP w = op ∧ fieldKK w = kk := by
  refine ⟨fun h => ?_, fun ⟨hop, hkk⟩ => hop ▸ hkk ▸ wordXKK_fields w⟩
  rw [← h, fieldOP_wordXKK, fieldKK_wordXKK]
  exact ⟨rfl, rfl⟩

theorem wordXYN_eq_iff {w : Word} {op n : Nibble} :
    wordXYN op (fieldX w) (fieldY w) n = w ↔ fieldOP w = op ∧ fieldN w = n := by
  refine ⟨fun h => ?_, fun ⟨hop, hn⟩ => hop ▸ hn ▸ wordXYN_fields w⟩
  rw [← h, fieldOP_wordXYN, fieldN_wordXYN]
  exact ⟨rfl, rfl⟩

/-! ## From a word to its instruction and back, family by family -/

theorem encodeWord_of_decode0 {w : Word} {i : Instr} (h : decode0 w = some i) : encodeWord i = w := by
  unfold decode0 at h
  split at h <;> cases h <;> rfl

theorem encodeWord_of_decodeXY0 {w : Word} {op : Nibble} {form : Nibble → Nibble → Instr} {i : Instr} (hop : fieldOP w = op)
    (hform : ∀ x y, encodeWord (form x y) = wordXYN op x y 0x0#4) (h : decodeXY0 w form = some i) : encodeWord i = w := by
  unfold decodeXY0 at h
  split at h <;> cases h
  rw [hform]
  exact wordXYN_eq_iff.mpr ⟨hop, ‹_›⟩

theorem encodeWord_of_decode8 {w : Word} {i : Instr} (hop : fieldOP w = 0x8#4) (h : decode8 w = some i) : encodeWord i = w := by
  unfold decode8 at h
  split at h <;> cases h <;> exact wordXYN_eq_iff.mpr ⟨hop, ‹_›⟩

theorem encodeWord_of_decodeE {w : Word} {i : Instr} (hop : fieldOP w = 0xE#4) (h : decodeE w = some i) : encodeWord i = w := by
  unfold decodeE at h
  split at h <;> cases h <;> exact wordXKK_eq_iff.mpr ⟨hop, ‹_›⟩

theorem encodeWord_of_decodeF {w : Word} {i : Instr} (hop : fieldOP w = 0xF#4) (h : decodeF w = some i) : encodeWord i = w := by
  unfold decodeF at h
  split at h <;> cases h <;> exact wordXKK_eq_iff.mpr ⟨hop, ‹_›⟩

/-- Settles O2: by the high nibble; in each family the digits the decoder compared are those the encoder writes. -/
theorem decodedWordEncodesBack : Obligations.DecodedWordEncodesBack := by
  intro w i h
  unfold decodeWord at h
  split at h
  case h_1 => exact encodeWord_of_decode0 h
  case h_6 hop => exact encodeWord_of_decodeXY0 hop (fun _ _ => rfl) h
  case h_9 hop => exact encodeWord_of_decode8 hop h
  case h_10 hop => exact encodeWord_of_decodeXY0 hop (fun _ _ => rfl) h
  case h_14 hop =>
    cases h
    exact wordXYN_eq_iff.mpr ⟨hop, rfl⟩
  case h_15 hop => exact encodeWord_of_decodeE hop h
  case h_16 =>
    have hop : fieldOP w = 0xF#4 := by
      generalize fieldOP w = op at *
      revert op
      decide
    exact encodeWord_of_decodeF hop h
  case h_2 hop | h_3 hop | h_11 hop | h_12 hop =>
    cases h
    exact wordNNN_eq_iff.mpr hop
  case h_4 hop | h_5 hop | h_7 hop | h_8 hop | h_13 hop =>
    cases h
    exact wordXKK_eq_iff.mpr ⟨hop, rfl⟩

/-! ## The opcode map: a mask keeps the fixed digits of a form -/

theorem wordNNN_and (op op' : Nibble) (a b : BitVec 12) :
    wordNNN op a &&& wordNNN op' b = wordNNN (op &&& op') (a &&& b) :=
  BitVec.and_append

theorem wordXKK_and (op op' x x' : Nibble) (kk kk' : Byte) :
    wordXKK op x kk &&& wordXKK op' x' kk' = wordXKK (op &&& op') (x &&& x') (kk &&& kk') :=
  (wordNNN_and ..).trans (congrArg (wordNNN _) BitVec.and_append)

theorem wordXYN_and (op op' x x' y y' n n' : Nibble) :
    wordXYN op x y n &&& wordXYN op' x' y' n' = wordXYN (op &&& op') (x &&& x') (y &&& y') (n &&& n') :=
  (wordXKK_and ..).trans (congrArg (wordXKK _ _) BitVec.and_append)

theorem and_maskOP (w : Word) : w &&& 0xF000#16 = wordNNN (fieldOP w) 0 := by
  have h := wordNNN_and (fieldOP w) (.allOnes 4) (fieldNNN w) 0#12
  rwa [wordNNN_fields, BitVec.and_allOnes, BitVec.and_zero] at h

theorem and_maskKK (w : Word) : w &&& 0xF0FF#16 = wordXKK (fieldOP w) 0 (fieldKK w) := by
  have h := wordXKK_and (fieldOP w) (.allOnes 4) (fieldX w) 0#4 (fieldKK w) (.allOnes 8)
  rwa [wordXKK_fields, BitVec.and_allOnes, BitVec.and_zero, BitVec.and_allOnes] at h

theorem and_maskN (w : Word) : w &&& 0xF00F#16 = wordXYN (fieldOP w) 0 0 (fieldN w) := by
  have h := wordXYN_and (fieldOP w) (.allOnes 4) (fieldX w) 0#4 (fieldY w) 0#4 (fieldN w) (.allOnes 4)
  rwa [wordXYN_fields, BitVec.and_allOnes, BitVec.and_zero, BitVec.and_zero, BitVec.and_allOnes] at h

theorem and_maskOP_eq_iff {w p : Word} {op : Nibble} (hp : p = wordNNN op 0) : w &&& 0xF000#16 = p ↔ fieldOP w = op := by
  rw [hp, and_maskOP]
  exact ⟨fun h => by simpa using congrArg fieldOP h, fun h => by rw [h]⟩

theorem and_maskKK_eq_iff {w p : Word} {op : Nibble} {kk : Byte} (hp : p = wordXKK op 0 kk) :
    w &&& 0xF0FF#16 = p ↔ fieldOP w = op ∧ fieldKK w = kk := by
  rw [hp, and_maskKK]
  exact ⟨fun h => ⟨by simpa using congrArg fieldOP h, by simpa using congrArg fieldKK h⟩, fun ⟨hop, hkk⟩ => by rw [hop, hkk]⟩

theorem and_maskN_eq_iff {w p : Word} {op n : Nibble} (hp : p = wordXYN op 0 0 n) :
    w &&& 0xF00F#16 = p ↔ fieldOP w = op ∧ fieldN w = n := by
  rw [hp, and_maskN]
  exact ⟨fun h => ⟨by simpa using congrArg fieldOP h, by simpa using congrArg fieldN h⟩, fun ⟨hop, hn⟩ => by rw [hop, hn]⟩

/-- The instruction of the same form as `i` whose operands are the fields of `w` (30_encoding.md R71, R72). -/
def Instr.withFields (w : Word) : Instr → Instr
  | .cls => .cls
  | .ret => .ret
  | .jp _ => .jp (fieldNNN w)
  | .call _ => .call (fieldNNN w)
  | .seK _ _ => .seK (fieldX w) (fieldKK w)
  | .sneK _ _ => .sneK (fieldX w) (fieldKK w)
  | .seV _ _ => .seV (fieldX w) (fieldY w)
  | .ldK _ _ => .ldK (fieldX w) (fieldKK w)
  | .addK _ _ => .addK (fieldX w) (fieldKK w)
  | .ldV _ _ => .ldV (fieldX w) (fieldY w)
  | .orV _ _ => .orV (fieldX w) (fieldY w)
  | .andV _ _ => .andV (fieldX w) (fieldY w)
  | .xorV _ _ => .xorV (fieldX w) (fieldY w)
  | .addV _ _ => .addV (fieldX w) (fieldY w)
  | .sub _ _ => .sub (fieldX w) (fieldY w)
  | .shr _ _ => .shr (fieldX w) (fieldY w)
  | .subn _ _ => .subn (fieldX w) (fieldY w)
  | .shl _ _ => .shl (fieldX w) (fieldY w)
  | .sneV _ _ => .sneV (fieldX w) (fieldY w)
  | .ldI _ => .ldI (fieldNNN w)
  | .jpV0 _ => .jpV0 (fieldNNN w)
  | .rnd _ _ => .rnd (fieldX w) (fieldKK w)
  | .drw _ _ _ => .drw (fieldX w) (fieldY w) (fieldN w)
  | .skp _ => .skp (fieldX w)
  | .sknp _ => .sknp (fieldX w)
  | .ldVDt _ => .ldVDt (fieldX w)
  | .ldVKey _ => .ldVKey (fieldX w)
  | .ldDtV _ => .ldDtV (fieldX w)
  | .ldStV _ => .ldStV (fieldX w)
  | .addI _ => .addI (fieldX w)
  | .ldF _ => .ldF (fieldX w)
  | .ldB _ => .ldB (fieldX w)
  | .stRegs _ => .stRegs (fieldX w)
  | .ldRegs _ => .ldRegs (fieldX w)

theorem Instr.row_withFields (w : Word) (i : Instr) : (i.withFields w).row = i.row := by
  cases i <;> rfl

theorem Instr.withFields_encodeWord (i : Instr) : i.withFields (encodeWord i) = i := by
  cases i <;> simp [Instr.withFields, encodeWord]

/-- A word selects the row of a form exactly when it is the form's word for its own fields: both say that the fixed digits match. -/
theorem Instr.row_selects_iff (w : Word) (j : Instr) : j.row.selects w = true ↔ encodeWord (j.withFields w) = w := by
  rw [OpcodeRow.selects, beq_iff_eq]
  cases j with
  | cls | ret => exact (Eq.congr_left (BitVec.and_allOnes (x := w))).trans eq_comm
  | jp | call | ldI | jpV0 =>
    refine Iff.trans ?_ wordNNN_eq_iff.symm
    exact and_maskOP_eq_iff rfl
  | seK | sneK | ldK | addK | rnd =>
    refine Iff.trans ?_ wordXKK_eq_iff.symm
    rw [and_iff_left rfl]
    exact and_maskOP_eq_iff rfl
  | drw =>
    refine Iff.trans ?_ wordXYN_eq_iff.symm
    rw [and_iff_left rfl]
    exact and_maskOP_eq_iff rfl
  | seV | ldV | orV | andV | xorV | addV | sub | shr | subn | shl | sneV =>
    refine Iff.trans ?_ wordXYN_eq_iff.symm
    exact and_maskN_eq_iff rfl
  | skp | sknp | ldVDt | ldVKey | ldDtV | ldStV | addI | ldF | ldB | stRegs | ldRegs =>
    refine Iff.trans ?_ wordXKK_eq_iff.symm
    exact and_maskKK_eq_iff rfl

/-- Settles O3: a word that selects the row of `j` is the encoding of `j` with the word's own fields; a word decoded to an instruction
of that row is that instruction's encoding. -/
theorem formIsSelectedByMatchAndMask : Obligations.FormIsSelectedByMatchAndMask := by
  intro w j
  constructor
  · intro h
    refine ⟨j.withFields w, ?_, j.row_withFields w⟩
    have henc := (j.row_selects_iff w).mp h
    simpa only [henc] using decodeWord_encodeWord (j.withFields w)
  · rintro ⟨i, hdec, hrow⟩
    have henc : encodeWord i = w := decodedWordEncodesBack w i hdec
    rw [← hrow, i.row_selects_iff, ← henc, i.withFields_encodeWord]

/-! ## The words that select no form (30_encoding.md R76) -/

theorem decode0_eq_none_iff (w : Word) : decode0 w = none ↔ w.toNat ≠ 0x00E0 ∧ w.toNat ≠ 0x00EE := by
  unfold decode0
  split
  case h_1 => simp
  case h_2 => simp
  case h_3 h₁ h₂ =>
    exact iff_of_true rfl ⟨fun h => h₁ (BitVec.eq_of_toNat_eq h), fun h => h₂ (BitVec.eq_of_toNat_eq h)⟩

theorem decodeXY0_eq_none_iff (w : Word) (form : Nibble → Nibble → Instr) : decodeXY0 w form = none ↔ w.toNat % 16 ≠ 0 := by
  rw [← toNat_fieldN]
  unfold decodeXY0
  split
  case h_1 h => simp [h]
  case h_2 h => exact iff_of_true rfl fun h' => h (BitVec.eq_of_toNat_eq h')

theorem decode8_eq_none_iff (w : Word) : decode8 w = none ↔ w.toNat % 16 ∈ [0x8, 0x9, 0xA, 0xB, 0xC, 0xD, 0xF] := by
  rw [← toNat_fieldN]
  unfold decode8
  generalize fieldN w = n
  split
  case h_10 =>
    refine iff_of_true rfl ?_
    revert n
    decide
  all_goals simp

theorem decodeE_eq_none_iff (w : Word) : decodeE w = none ↔ w.toNat % 256 ∉ [0x9E, 0xA1] := by
  rw [← toNat_fieldKK]
  unfold decodeE
  generalize fieldKK w = kk
  split
  case h_3 =>
    refine iff_of_true rfl ?_
    revert kk
    decide
  all_goals simp

theorem decodeF_eq_none_iff (w : Word) :
    decodeF w = none ↔ w.toNat % 256 ∉ [0x07, 0x0A, 0x15, 0x18, 0x1E, 0x29, 0x33, 0x55, 0x65] := by
  rw [← toNat_fieldKK]
  unfold decodeF
  generalize fieldKK w = kk
  split
  case h_10 =>
    refine iff_of_true rfl ?_
    revert kk
    decide
  all_goals simp

/-- Settles O4: by the high nibble; the families with further fixed digits say which of these digits select nothing. -/
theorem unknownWordsAreTheListedOnes : Obligations.UnknownWordsAreTheListedOnes := by
  intro w
  rw [← toNat_fieldOP]
  unfold decodeWord
  split
  case h_1 hop => simp [hop, decode0_eq_none_iff]
  case h_6 hop => simp [hop, decodeXY0_eq_none_iff]
  case h_9 hop => simp [hop, decode8_eq_none_iff]
  case h_10 hop => simp [hop, decodeXY0_eq_none_iff]
  case h_15 hop => simp [hop, decodeE_eq_none_iff]
  case h_16 =>
    have hop : fieldOP w = 0xF#4 := by
      generalize fieldOP w = op at *
      revert op
      decide
    simp [hop, decodeF_eq_none_iff]
  case h_2 hop | h_3 hop | h_4 hop | h_5 hop | h_7 hop | h_8 hop | h_11 hop | h_12 hop | h_13 hop | h_14 hop => simp [hop]

/-- Settles O5: the decoder run on each word. -/
theorem sampleWordsDecodeAsWritten : Obligations.SampleWordsDecodeAsWritten :=
  ⟨rfl, rfl, rfl, rfl, rfl, rfl, rfl, rfl⟩

end Sys2Proof
end

section
/-!
PROOFS. Frames, one for each operation of Machine/Ops.lean, and how they go together: an instruction's frame is put together from those
of its operations.
-/

namespace Sys2Proof.Machine

open Sys2Proof

/-! ## Frames in sequence -/

theorem Element.unchanged_trans {e : Element} {s t u : State} (h : e.unchanged s t) (h' : e.unchanged t u) : e.unchanged s u := by
  cases e with
  | ports =>
    obtain ⟨hkeys, hrnd, hpending, hdraws, hdiag, hopen⟩ := h
    obtain ⟨hkeys', hrnd', hpending', hdraws', hdiag', hopen'⟩ := h'
    exact ⟨hkeys'.trans hkeys, hrnd'.trans hrnd, hpending'.trans hpending, hdraws'.trans hdraws, hdiag'.trans hdiag,
      hopen'.trans hopen⟩
  | _ => exact Eq.trans h' h

theorem changesOnly.trans {W : Element → Prop} {s t u : State} (h : changesOnly W s t) (h' : changesOnly W t u) :
    changesOnly W s u :=
  fun e he => Element.unchanged_trans (h e he) (h' e he)

theorem changesOnly.mono {W W' : Element → Prop} {s t : State} (h : changesOnly W s t) (hW : ∀ e, W e → W' e) : changesOnly W' s t :=
  fun e he => h e (mt (hW e) he)

/-- An operation that changes what `W` allows, and `pc` moved on. -/
theorem changesOnly.setPc {W : Element → Prop} {s t : State} (h : changesOnly W s t) (a : Nat) (hpc : W .pc) :
    changesOnly W s (t.setPc a) :=
  h.trans ((t.setPc_changesOnly_pc a).mono fun _ he => he ▸ hpc)

/-! ## Each operation's frame -/

/-- Both ends of a skip write `pc` once. -/
theorem State.skipIf_eq_setPc (s : State) (c : Bool) : s.skipIf c = s.setPc (s.pc.toNat + if c then 4 else 2) := by
  cases c <;> rfl

theorem State.skipIf_changesOnly_pc (s : State) (c : Bool) : changesOnly (fun e => e = .pc) s (s.skipIf c) :=
  s.skipIf_eq_setPc c ▸ s.setPc_changesOnly_pc _

theorem State.setI_changesOnly_I (s : State) (a : Nat) : changesOnly (fun e => e = .I) s (s.setI a) := by
  intro e he
  cases e with
  | I => exact absurd rfl he
  | ports => exact ⟨rfl, rfl, rfl, rfl, rfl, rfl⟩
  | _ => rfl

theorem State.writeV_changesOnly_V (s : State) (x : Nibble) (v : Byte) : changesOnly (fun e => e = .V x) s (s.writeV x v) := by
  intro e he
  cases e with
  | V r => exact State.readV_writeV_of_ne v fun h => he (h ▸ rfl)
  | ports => exact ⟨rfl, rfl, rfl, rfl, rfl, rfl⟩
  | _ => rfl

/-- A sequence of stores changes the bytes it is aimed at, outside the glyph table. -/
theorem State.writeBytes_changesOnly_bytes (s : State) (a : Nat) (bs : List Byte) :
    changesOnly (fun e => ∃ b, e = .byte b ∧ 0x50 ≤ b % 4096 ∧ ∃ k < bs.length, b % 4096 = (a + k) % 4096) s
      (s.writeBytes a bs) := by
  intro e he
  cases e with
  | byte b =>
    by_cases hglyph : b % 4096 < 0x50
    · exact Memory.read_writeBytes_glyph bs s.mem a hglyph
    · refine Memory.read_writeBytes_of_ne bs s.mem a b fun k hk hb => he ⟨b, rfl, by omega, k, hk, hb⟩
  | ports => exact ⟨rfl, rfl, rfl, rfl, rfl, rfl⟩
  | _ => rfl

/-! ## `pc` after the common ends of an instruction -/

theorem State.toNat_pc_advance_eq_pcPlus (s : State) : s.advance.pc.toNat = s.pcPlus 2 :=
  s.toNat_pc_advance

theorem State.toNat_pc_skipIf_eq_pcPlus (s : State) (c : Bool) : (s.skipIf c).pc.toNat = s.pcPlus (if c then 4 else 2) :=
  s.toNat_pc_skipIf c

end Sys2Proof.Machine
end

section
/-!
PROOFS. Register load, arithmetic and logic (42_alu.md): everything the two ends `writeResult` and `writeResultFlag` do, and from it
each instruction.
-/

namespace Sys2Proof.Machine

open Sys2Proof

/-! ## A result without a flag -/

/-- Everything the end of an instruction without a flag does. -/
theorem State.writeResult_spec (s : State) (x : Nibble) (v : Byte) :
    (s.writeResult x v).readV x = v ∧ (s.writeResult x v).pc.toNat = s.pcPlus 2 ∧
      changesOnly (fun e => e = .V x ∨ e = .pc) s (s.writeResult x v) :=
  ⟨s.readV_writeV_self x v, s.toNat_pc_advance_eq_pcPlus, ((s.writeV_changesOnly_V x v).mono fun _ => .inl).setPc _ (.inr rfl)⟩

/-- Settles O27: `ADD_K` adds bytes, so modulo 256. -/
theorem loadsAndAddImmediateWriteOneRegister : Obligations.LoadsAndAddImmediateWriteOneRegister := by
  intro s x y kk
  refine ⟨⟨_, rfl, s.writeResult_spec x kk⟩, ⟨_, rfl, ?_⟩, ⟨_, rfl, s.writeResult_spec x (s.readV y)⟩⟩
  obtain ⟨hval, hrest⟩ := s.writeResult_spec x (s.readV x + kk)
  exact ⟨by rw [hval, BitVec.toNat_add], hrest⟩

/-- A result is judged bit by bit when its bits are known. -/
theorem State.writeResult_bits (s : State) (x : Nibble) (v : Byte) {f : Nat → Bool} (hf : ∀ b, v.getLsbD b = f b) :
    (∀ b, ((s.writeResult x v).readV x).getLsbD b = f b) ∧ (s.writeResult x v).pc.toNat = s.pcPlus 2 ∧
      changesOnly (fun e => e = .V x ∨ e = .pc) s (s.writeResult x v) := by
  obtain ⟨hval, hrest⟩ := s.writeResult_spec x v
  exact ⟨fun b => by rw [hval, hf], hrest⟩

/-- Settles O28: the bits of a bitwise operation are those of its operands, combined. -/
theorem logicWorksBitByBit : Obligations.LogicWorksBitByBit := fun s x _ =>
  ⟨⟨_, rfl, s.writeResult_bits x _ fun _ => BitVec.getLsbD_or⟩, ⟨_, rfl, s.writeResult_bits x _ fun _ => BitVec.getLsbD_and⟩,
    ⟨_, rfl, s.writeResult_bits x _ fun _ => BitVec.getLsbD_xor⟩⟩

/-- Settles O33: the random byte is masked bit by bit. -/
theorem randomByteIsMasked : Obligations.RandomByteIsMasked := fun s x _ =>
  ⟨_, rfl, s.writeResult_bits x _ fun _ => BitVec.getLsbD_and⟩

/-! ## A result with the flag written last -/

/-- Everything the end of an instruction with a flag does. -/
theorem State.writeResultFlag_spec (s : State) (x : Nibble) (v : Byte) (b : Bool) :
    (s.writeResultFlag x v b).readV 15 = flagByte b ∧ (x ≠ 15 → (s.writeResultFlag x v b).readV x = v) ∧
      (s.writeResultFlag x v b).pc.toNat = s.pcPlus 2 ∧
      changesOnly (fun e => e = .V x ∨ e = .V 15 ∨ e = .pc) s (s.writeResultFlag x v b) := by
  refine ⟨?_, fun hx => ?_, s.toNat_pc_advance_eq_pcPlus,
    changesOnly.setPc (changesOnly.trans (t := s.writeV x v) ?_ ?_) _ (.inr (.inr rfl))⟩
  · rw [State.readV_writeResultFlag, if_pos rfl]
  · rw [State.readV_writeResultFlag, if_neg hx, if_pos rfl]
  · exact (s.writeV_changesOnly_V x v).mono fun _ => .inl
  · exact ((s.writeV x v).writeV_changesOnly_V 15 (flagByte b)).mono fun _ h => .inr (.inl h)

/-- The same with flag and result as numbers, as the rules of 42_alu.md state them. -/
theorem State.writeResultFlag_nat (s : State) (x : Nibble) (v : Byte) (b : Bool) {f : Byte} {r : Nat} (hf : flagByte b = f)
    (hr : v.toNat = r) :
    (s.writeResultFlag x v b).readV 15 = f ∧ (x ≠ 15 → ((s.writeResultFlag x v b).readV x).toNat = r) ∧
      (s.writeResultFlag x v b).pc.toNat = s.pcPlus 2 ∧
      changesOnly (fun e => e = .V x ∨ e = .V 15 ∨ e = .pc) s (s.writeResultFlag x v b) := by
  obtain ⟨hflag, hval, hrest⟩ := s.writeResultFlag_spec x v b
  exact ⟨hflag.trans hf, fun hx => (congrArg _ (hval hx)).trans hr, hrest⟩

/-- The flag of a decided condition. -/
theorem flagByte_decide (p : Prop) [Decidable p] : flagByte (decide p) = if p then 1 else 0 := by
  simp [flagByte]

/-- Settles O29: the carry is the exact sum compared with 255, the result the sum of the bytes. -/
theorem addSetsCarryAndWraps : Obligations.AddSetsCarryAndWraps := fun s x _ =>
  ⟨_, rfl, s.writeResultFlag_nat x _ _ (flagByte_decide _) (BitVec.toNat_add ..)⟩

/-- Byte subtraction as a number, the borrowed 256 put before the subtrahend. -/
theorem toNat_byte_sub (a b : Byte) : (a - b).toNat = (a.toNat + 256 - b.toNat) % 256 := by
  have := b.isLt
  rw [BitVec.toNat_sub]
  omega

/-- Settles O30: no borrow is minuend at least subtrahend; `SUBN` is `SUB` with the operands exchanged. -/
theorem subtractionsSetNoBorrow : Obligations.SubtractionsSetNoBorrow := fun s x _ =>
  ⟨⟨_, rfl, s.writeResultFlag_nat x _ _ (flagByte_decide _) (toNat_byte_sub ..)⟩,
    ⟨_, rfl, s.writeResultFlag_nat x _ _ (flagByte_decide _) (toNat_byte_sub ..)⟩⟩

/-! ## Shifts -/

theorem toNat_flagByte (b : Bool) : (flagByte b).toNat = b.toNat := by
  cases b <;> rfl

theorem toNat_shiftedOutRight (v : Byte) : (flagByte (shiftedOutRight v)).toNat = v.toNat % 2 := by
  rw [toNat_flagByte, shiftedOutRight, BitVec.getLsbD, Nat.toNat_testBit, Nat.pow_zero, Nat.div_one]

theorem toNat_shiftedOutLeft (v : Byte) : (flagByte (shiftedOutLeft v)).toNat = v.toNat / 128 := by
  have := v.isLt
  rw [toNat_flagByte, shiftedOutLeft, BitVec.getLsbD, Nat.toNat_testBit]
  omega

/-- The register a shift reads, as an `if`. -/
theorem shiftOperand_eq_ite (src : Config.ShiftSrc) (x y : Nibble) : shiftOperand src x y = if src = .vx then x else y := by
  cases src <;> rfl

theorem exec_shr (x y : Nibble) (s : State) :
    exec (.shr x y) s = .next (s.writeResultFlag x (s.readV (shiftOperand s.params.shiftSrc x y) >>> 1)
      (shiftedOutRight (s.readV (shiftOperand s.params.shiftSrc x y)))) := rfl

theorem exec_shl (x y : Nibble) (s : State) :
    exec (.shl x y) s = .next (s.writeResultFlag x (s.readV (shiftOperand s.params.shiftSrc x y) <<< 1)
      (shiftedOutLeft (s.readV (shiftOperand s.params.shiftSrc x y)))) := rfl

/-- Settles O31: a shift by one halves or doubles its source, and the flag is the bit lost. -/
theorem shiftsMoveTheirSourceByOne : Obligations.ShiftsMoveTheirSourceByOne := by
  intro s x y r hr
  rw [← shiftOperand_eq_ite] at hr
  rw [exec_shr, exec_shl, ← hr]
  obtain ⟨hflag, hval, hrest⟩ := s.writeResultFlag_nat x (s.readV r >>> 1) (shiftedOutRight (s.readV r)) rfl
    (r := (s.readV r).toNat / 2) (BitVec.toNat_ushiftRight ..)
  obtain ⟨hflag', hval', hrest'⟩ := s.writeResultFlag_nat x (s.readV r <<< 1) (shiftedOutLeft (s.readV r)) rfl
    (r := (s.readV r).toNat * 2 % 256) (by rw [BitVec.toNat_shiftLeft, Nat.shiftLeft_eq, Nat.pow_one])
  exact ⟨⟨_, rfl, by rw [hflag, toNat_shiftedOutRight], hval, hrest⟩,
    ⟨_, rfl, by rw [hflag', toNat_shiftedOutLeft], hval', hrest'⟩⟩

end Sys2Proof.Machine
end

section
/-!
PROOFS. The flow family, continued (41_flow.md): `CALL` and `RET` at either end of the stack, and the skips.
-/

namespace Sys2Proof.Machine

open Sys2Proof

/-! ## The two ends of `CALL` and of `RET`, as equations -/

theorem exec_call_of_full {s : State} (nnn : BitVec 12) (h : s.SP.val = 16) :
    exec (.call nnn) s = .next (s.raise .stackOverflow) := by
  simp only [exec, execCall, State.push_of_full _ h]

theorem exec_call_of_lt {s : State} (nnn : BitVec 12) (h : s.SP.val < 16) :
    exec (.call nnn) s = .next (State.setPc
      { s with
        stack := s.stack.set s.SP.val (BitVec.ofNat 16 (s.pcPlus 2)) h
        SP := ⟨s.SP.val + 1, Nat.succ_lt_succ h⟩ } nnn.toNat) := by
  simp only [exec, execCall, State.push_of_lt _ h]
  rfl

theorem exec_ret_of_empty {s : State} (h : s.SP.val = 0) : exec .ret s = .next (s.raise .stackUnderflow) := by
  simp only [exec, execRet, State.pop_of_empty h]

theorem exec_ret_of_pos {s : State} (h : 0 < s.SP.val) :
    exec .ret s = .next (State.setPc { s with SP := ⟨s.SP.val - 1, by omega⟩ } (s.stack[s.SP.val - 1]).toNat) := by
  simp only [exec, execRet, State.pop_of_pos h]

/-- Settles O23: a full stack takes no entry and an empty one has none, and `State.raise` writes `run` and `fault` alone. -/
theorem stackFaultsHaltPrecisely : Obligations.StackFaultsHaltPrecisely :=
  fun _ nnn => ⟨exec_call_of_full nnn, exec_ret_of_empty⟩

/-! ## `CALL` and `RET` on a stack with room, or an entry -/

theorem toNat_ofNat_pcPlus (s : State) (n : Nat) : (BitVec.ofNat 16 (s.pcPlus n)).toNat = s.pcPlus n :=
  toNat_masked _

theorem pcPlus_lt (s : State) (n : Nat) : s.pcPlus n < 4096 :=
  Nat.mod_lt _ (by decide)

/-- A push changes the entry at the old `SP` and `SP`. -/
theorem push_changesOnly (s : State) (w : Word) (sp : Fin 17) (k : Fin 16) :
    changesOnly (fun e => e = .SP ∨ e = .stack k) s { s with stack := s.stack.set k.val w k.isLt, SP := sp } := by
  intro e he
  cases e with
  | SP => exact absurd (.inl rfl) he
  | stack j =>
    have hne : k.val ≠ j.val := fun h => he (.inr (congrArg _ (Fin.ext h.symm)))
    exact Vector.getElem_set_ne k.isLt j.isLt hne
  | ports => exact ⟨rfl, rfl, rfl, rfl, rfl, rfl⟩
  | _ => rfl

/-- A pop changes `SP`. -/
theorem pop_changesOnly (s : State) (sp : Fin 17) : changesOnly (fun e => e = .SP) s { s with SP := sp } := by
  intro e he
  cases e with
  | SP => exact absurd rfl he
  | ports => exact ⟨rfl, rfl, rfl, rfl, rfl, rfl⟩
  | _ => rfl

/-- Settles O21: the push goes to the entry `SP` counts to, and the jump is as `JP`'s. -/
theorem callPushesTheReturnAddress : Obligations.CallPushesTheReturnAddress := by
  intro s nnn k hk
  have hroom : s.SP.val < 16 := hk ▸ k.isLt
  obtain rfl : ⟨s.SP.val, hroom⟩ = k := Fin.ext hk
  refine ⟨_, exec_call_of_lt nnn hroom, ?_, rfl, ?_, ?_⟩
  · exact (congrArg BitVec.toNat (Vector.getElem_set_self hroom)).trans (toNat_ofNat_pcPlus s 2)
  · rw [State.toNat_pc_setPc, memSize_eq, Nat.mod_eq_of_lt nnn.isLt]
  · refine changesOnly.setPc ?_ _ (.inl rfl)
    exact (push_changesOnly s _ _ ⟨s.SP.val, hroom⟩).mono fun _ => .inr

/-- Settles O22: the entry popped is the one below `SP`, and it stays. -/
theorem returnPopsTheTarget : Obligations.ReturnPopsTheTarget := by
  intro s k hk
  have hpos : 0 < s.SP.val := by omega
  have htop : s.SP.val - 1 = k.val := by omega
  refine ⟨_, exec_ret_of_pos hpos, ?_, htop, ?_⟩
  · rw [State.toNat_pc_setPc, memSize_eq]
    simp only [htop, Fin.getElem_fin]
  · exact ((pop_changesOnly s _).mono fun _ => .inr).setPc _ (.inl rfl)

/-- Settles O25: the return pops the entry the call has just pushed, which is below 4096 already. -/
theorem returnUndoesACall : Obligations.ReturnUndoesACall := by
  intro s t nnn hroom hcall
  obtain ⟨t', hcall', htop, hsp, -, -⟩ := callPushesTheReturnAddress s nnn ⟨s.SP.val, hroom⟩ rfl
  obtain rfl : t' = t := by simpa using hcall'.symm.trans hcall
  obtain ⟨u, hret, hpc, hsp', -⟩ := returnPopsTheTarget t' ⟨s.SP.val, hroom⟩ hsp
  exact ⟨u, hret, by rw [hpc, htop, Nat.mod_eq_of_lt (pcPlus_lt s 2)], Fin.ext hsp'⟩

/-- Settles O26: each call with room adds one entry and runs on; the seventeenth finds sixteen. -/
theorem seventeenthCallOverflows : Obligations.SeventeenthCallOverflows := by
  intro f target hsp hrun hcalls
  have hdepth : ∀ k ≤ 16, (f k).SP.val = k ∧ (f k).run = .run := by
    intro k hk
    induction k with
    | zero => exact ⟨hsp, hrun⟩
    | succ k ih =>
      obtain ⟨hspk, hrunk⟩ := ih (by omega)
      have hcall := hcalls k (by omega)
      rw [exec_call_of_lt _ (by omega)] at hcall
      injection hcall with hnext
      rw [← hnext]
      exact ⟨congrArg Nat.succ hspk, hrunk⟩
  have hfault := hcalls 16 le_rfl
  rw [exec_call_of_full _ (hdepth 16 le_rfl).1] at hfault
  injection hfault with hnext
  rw [← hnext]
  exact ⟨hdepth, rfl, rfl, rfl, rfl⟩

/-! ## The skips -/

/-- Everything a conditional skip does, its condition as a proposition. -/
theorem State.skipIf_spec (s : State) (c : Bool) (p : Prop) [Decidable p] (hp : c = true ↔ p) :
    changesOnly (fun e => e = .pc) s (s.skipIf c) ∧ (s.skipIf c).pc.toNat = s.pcPlus (if p then 4 else 2) := by
  refine ⟨s.skipIf_changesOnly_pc c, ?_⟩
  simp only [s.toNat_pc_skipIf_eq_pcPlus, hp]

/-- The same for a skip whose condition is the negation. -/
theorem State.skipIf_not_spec (s : State) (c : Bool) (p : Prop) [Decidable p] (hp : c = true ↔ ¬ p) :
    changesOnly (fun e => e = .pc) s (s.skipIf c) ∧ (s.skipIf c).pc.toNat = s.pcPlus (if p then 2 else 4) := by
  rw [← ite_not]
  exact s.skipIf_spec c (¬ p) hp

/-- Settles O24: bytes are equal when their numbers are. -/
theorem registerSkipsFollowTheirConditions : Obligations.RegisterSkipsFollowTheirConditions := by
  intro s x y kk
  have heq : ∀ a b : Byte, (a == b) = true ↔ a.toNat = b.toNat := fun a b => by rw [beq_iff_eq, BitVec.toNat_inj]
  have hne : ∀ a b : Byte, (a != b) = true ↔ ¬ a.toNat = b.toNat := fun a b => by rw [bne_iff_ne, ne_eq, BitVec.toNat_inj]
  exact ⟨⟨_, rfl, s.skipIf_spec _ _ (heq _ _)⟩, ⟨_, rfl, s.skipIf_not_spec _ _ (hne _ _)⟩,
    ⟨_, rfl, s.skipIf_spec _ _ (heq _ _)⟩, ⟨_, rfl, s.skipIf_not_spec _ _ (hne _ _)⟩⟩

/-- Settles O45: `SKNP` skips on the negation of what `SKP` skips on. -/
theorem keySkipsReadTheSnapshot : Obligations.KeySkipsReadTheSnapshot := fun s x =>
  ⟨⟨_, rfl, s.skipIf_spec _ _ Iff.rfl⟩, ⟨_, rfl, s.skipIf_not_spec _ _ (by simp [State.keyPressed])⟩⟩

end Sys2Proof.Machine
end

section
/-!
PROOFS. Index register and memory (43_index_memory.md): the writers of `I`, everything a stored sequence does, the register block, and
the canonical form of memory.
-/

namespace Sys2Proof.Machine

open Sys2Proof

/-! ## The index register -/

/-- Everything a write of `I` and the advance after it do. -/
theorem State.setI_advance_spec (s : State) (a : Nat) {r : Nat} (hr : a % 4096 = r) :
    (s.setI a).advance.I.toNat = r ∧ (s.setI a).advance.pc.toNat = s.pcPlus 2 ∧
      changesOnly (fun e => e = .I ∨ e = .pc) s (s.setI a).advance :=
  ⟨(s.toNat_I_setI a).trans hr, (s.setI a).toNat_pc_advance_eq_pcPlus, ((s.setI_changesOnly_I a).mono fun _ => .inl).setPc _ (.inr rfl)⟩

/-- Settles O34: a 12-bit immediate and five times a byte are below 4096 as they are. -/
theorem indexRegisterIsSetAddedAndPointed : Obligations.IndexRegisterIsSetAddedAndPointed := by
  intro s x nnn
  have hglyph : glyphAddr (s.readV x) % 4096 = (s.readV x).toNat * 5 := by
    have := (s.readV x).isLt
    exact Nat.mod_eq_of_lt (show (s.readV x).toNat * 5 < 4096 by omega)
  exact ⟨⟨_, rfl, s.setI_advance_spec _ (Nat.mod_eq_of_lt nnn.isLt)⟩, ⟨_, rfl, s.setI_advance_spec _ rfl⟩,
    ⟨_, rfl, s.setI_advance_spec _ hglyph⟩⟩

/-! ## A sequence stored from `I` -/

/-- Everything a sequence stored from `I` and the advance after it do. -/
theorem State.storeFromI_spec (s : State) (bs : List Byte) (hlen : bs.length ≤ 4096) :
    (∀ k (hk : k < bs.length) a, a % 4096 = s.dataAddr k % 4096 → 0x50 ≤ a % 4096 →
      (s.writeBytes (s.dataAddr 0) bs).advance.readByte a = bs[k]) ∧
    (s.writeBytes (s.dataAddr 0) bs).advance.pc.toNat = s.pcPlus 2 ∧
    changesOnly (fun e => e = .pc ∨ ∃ a, e = .byte a ∧ 0x50 ≤ a % 4096 ∧ ∃ k < bs.length, a % 4096 = s.dataAddr k % 4096) s
      (s.writeBytes (s.dataAddr 0) bs).advance := by
  refine ⟨fun k hk a ha hglyph => ?_, s.toNat_pc_advance_eq_pcPlus, changesOnly.setPc ?_ _ (.inl rfl)⟩
  · exact Memory.read_writeBytes bs s.mem (s.dataAddr 0) a k hk hlen ha hglyph
  · exact (s.writeBytes_changesOnly_bytes (s.dataAddr 0) bs).mono fun _ => .inr

theorem exec_ldB (x : Nibble) (s : State) :
    exec (.ldB x) s = .next (s.writeBytes (s.dataAddr 0) (bcdDigits (s.readV x))).advance := rfl

theorem toNat_ofNat_byte {n : Nat} (h : n < 256) : (BitVec.ofNat 8 n).toNat = n := by
  rw [BitVec.toNat_ofNat, Nat.mod_eq_of_lt h]

/-- Settles O35: the three digits are a stored sequence, and each fits its byte. -/
theorem decimalDigitsAreStored : Obligations.DecimalDigitsAreStored := by
  intro s x
  have := (s.readV x).isLt
  obtain ⟨hbytes, hpc, hframe⟩ := s.storeFromI_spec (bcdDigits (s.readV x)) (by simp [bcdDigits])
  refine ⟨_, exec_ldB x s, fun a ha hg => ?_, fun a ha hg => ?_, fun a ha hg => ?_, hpc, hframe⟩
  · exact (congrArg _ (hbytes 0 (by simp [bcdDigits]) a ha hg)).trans (toNat_ofNat_byte (by omega))
  · exact (congrArg _ (hbytes 1 (by simp [bcdDigits]) a ha hg)).trans (toNat_ofNat_byte (by omega))
  · exact (congrArg _ (hbytes 2 (by simp [bcdDigits]) a ha hg)).trans (toNat_ofNat_byte (by omega))

/-! ## The register block -/

theorem exec_stRegs (x : Nibble) (s : State) :
    exec (.stRegs x) s = .next (s.writeBytes (s.dataAddr 0) (s.regBytes (x.toNat + 1))).advance := rfl

theorem State.length_regBytes (s : State) (x : Nibble) : (s.regBytes (x.toNat + 1)).length = x.toNat + 1 := by
  have := x.isLt
  simp [State.regBytes]
  omega

theorem State.getElem_regBytes (s : State) (n : Nat) (k : Nibble) (hk : k.toNat < (s.regBytes n).length) :
    (s.regBytes n)[k.toNat] = s.readV k := by
  simp [State.regBytes, State.readV]

/-- Settles O36: the registers are a stored sequence of `X + 1` bytes. -/
theorem registerBlockIsStored : Obligations.RegisterBlockIsStored := by
  intro s x
  have hlen := s.length_regBytes x
  obtain ⟨hbytes, hpc, hframe⟩ := s.storeFromI_spec (s.regBytes (x.toNat + 1)) (by have := x.isLt; omega)
  refine ⟨_, exec_stRegs x s, fun k a hk ha hg => ?_, hpc, hframe.mono ?_⟩
  · have hk' : k.toNat < (s.regBytes (x.toNat + 1)).length := by rw [hlen]; exact Nat.lt_succ_of_le hk
    rw [hbytes k.toNat hk' a ha hg, s.getElem_regBytes]
  · rintro e (hpc | ⟨a, ha, hg, k, hk, hka⟩)
    · exact .inl hpc
    · exact .inr ⟨a, ha, hg, k, by omega, hka⟩

/-- Register `r` after a block load from `I`: its byte, or its old value. -/
theorem State.readV_loadRegBytes (s : State) (x r : Nibble) :
    ({ s with V := loadRegBytes s.V 0 (s.readBytes (s.dataAddr 0) (x.toNat + 1)) } : State).readV r =
      if r ≤ x then s.readByte (s.dataAddr r.toNat) else s.readV r := by
  have hlen : (s.readBytes (s.dataAddr 0) (x.toNat + 1)).length = x.toNat + 1 := Memory.length_readBytes ..
  have hcond : (0 ≤ r.toNat ∧ r.toNat - 0 < (s.readBytes (s.dataAddr 0) (x.toNat + 1)).length) ↔ r ≤ x := by
    rw [hlen, BitVec.le_def]
    omega
  refine (getElem_loadRegBytes ..).trans ?_
  by_cases hr : r ≤ x
  · rw [dif_pos (hcond.mpr hr), if_pos hr]
    exact Memory.getElem_readBytes ..
  · rw [dif_neg (mt hcond.mp hr), if_neg hr]
    rfl

theorem exec_ldRegs (x : Nibble) (s : State) :
    exec (.ldRegs x) s =
      .next (State.advance { s with V := loadRegBytes s.V 0 (s.readBytes (s.dataAddr 0) (x.toNat + 1)) }) := rfl

/-- Settles O37: the registers up to `X` get their bytes, and nothing else is written but `pc`. -/
theorem registerBlockIsLoaded : Obligations.RegisterBlockIsLoaded := by
  intro s x
  refine ⟨_, exec_ldRegs x s, fun k hk => ?_, s.toNat_pc_advance_eq_pcPlus, changesOnly.setPc ?_ _ (.inl rfl)⟩
  · exact (s.readV_loadRegBytes x k).trans (if_pos hk)
  · intro e he
    cases e with
    | V r => exact (s.readV_loadRegBytes x r).trans (if_neg fun h => he (.inr ⟨r, rfl, h⟩))
    | ports => exact ⟨rfl, rfl, rfl, rfl, rfl, rfl⟩
    | _ => rfl

/-- An instruction answers one next state. -/
theorem eq_of_exec_eq {i : Instr} {s t u : State} (h : exec i s = .next t) (h' : exec i s = .next u) : t = u := by
  rw [h] at h'
  injection h'

/-- Settles O38: a register up to `X` is read back from the address it was stored at, for `I` did not change; the others were not
written. -/
theorem blockStoreThenLoadRestores : Obligations.BlockStoreThenLoadRestores := by
  intro s t u x hlow hhigh hst hld r
  obtain ⟨t', hst', hstored, -, hstFrame⟩ := registerBlockIsStored s x
  obtain rfl := eq_of_exec_eq hst hst'
  obtain ⟨u', hld', hloaded, -, hldFrame⟩ := registerBlockIsLoaded t x
  obtain rfl := eq_of_exec_eq hld hld'
  by_cases hr : r ≤ x
  · have hI : t.I = s.I := hstFrame .I (by simp)
    have haddr : t.dataAddr r.toNat = s.I.toNat + r.toNat := by rw [State.dataAddr, hI]
    have hrx : r.toNat ≤ x.toNat := hr
    rw [hloaded r hr, haddr]
    exact hstored r _ hr rfl (by omega)
  · rw [show u.readV r = t.readV r from hldFrame (.V r) (by simpa using hr)]
    exact hstFrame (.V r) (by simp)

/-! ## A stored byte and the fetch after it (20_memory.md R65) -/

/-- The bytes of the fetched word are those at `pc` and the address after it. -/
theorem State.fetchWord_bytes (t : State) :
    t.fetchWord.toNat / 256 = (t.readByte t.pc.toNat).toNat ∧ t.fetchWord.toNat % 256 = (t.readByte (t.pcPlus 1)).toNat := by
  have hlo := (t.readByte (t.pcPlus 1)).isLt
  rw [fetchIsTwoBytesHighFirst t, ← State.pcPlus]
  omega

/-- An address that holds `v`, however it is written, shows `v` in the next fetch. -/
theorem State.fetchWord_sees (t : State) {c v : Nat} (h : ∀ b, b % 4096 = c % 4096 → (t.readByte b).toNat = v) :
    (c % 4096 = t.pc.toNat → t.fetchWord.toNat / 256 = v) ∧ (c % 4096 = t.pcPlus 1 → t.fetchWord.toNat % 256 = v) := by
  obtain ⟨hhigh, hlow⟩ := t.fetchWord_bytes
  constructor
  · intro hpc
    rw [hhigh, h _ (by rw [← hpc, Nat.mod_mod])]
  · intro hpc
    rw [hlow, h _ (by rw [← hpc, Nat.mod_mod])]

/-- Settles O39: the stored byte is read at its address in the state the store leaves, and that is where the next fetch reads. -/
theorem storeIsSeenByTheNextFetch : Obligations.StoreIsSeenByTheNextFetch := by
  constructor
  · intro s x k hk hglyph
    obtain ⟨t, hst, hstored, -⟩ := registerBlockIsStored s x
    exact ⟨t, hst, t.fetchWord_sees fun b hb => congrArg _ (hstored k b hk hb (hb ▸ hglyph))⟩
  · intro s x k digit hdigit hglyph
    obtain ⟨t, hst, hhundreds, htens, hunits, -⟩ := decimalDigitsAreStored s x
    refine ⟨t, hst, t.fetchWord_sees fun b hb => ?_⟩
    have hb' : 0x50 ≤ b % 4096 := hb ▸ hglyph
    simp only [List.mem_cons, Prod.mk.injEq, List.not_mem_nil, or_false] at hdigit
    rcases hdigit with ⟨rfl, rfl⟩ | ⟨rfl, rfl⟩ | ⟨rfl, rfl⟩
    · exact hhundreds b hb hb'
    · exact htens b hb hb'
    · exact hunits b hb hb'

/-! ## Memories that read alike -/

/-- A cell of a canonical memory is what its address reads as. -/
theorem Memory.lookup_of_mem {rom : Config.GlyphRom} {m : Memory} (hm : m.Pairwise fun c d => c.1 < d.1) {c : Host.Cell}
    (hc : c ∈ m) : m.lookup rom c.1 = c.2 := by
  induction m with
  | nil => cases hc
  | cons d m ih =>
    obtain ⟨hd, hm⟩ := List.pairwise_cons.mp hm
    rw [Memory.lookup]
    rcases List.mem_cons.mp hc with rfl | hc
    · exact if_pos rfl
    · rw [if_neg (Nat.ne_of_lt (hd c hc)), ih hm hc]

/-- The cells of a canonical memory are the addresses that do not read as their reset byte, with what they read as. -/
theorem Memory.mem_iff_of_wf {rom : Config.GlyphRom} {m : Memory} (hm : m.wf rom) (c : Host.Cell) :
    c ∈ m ↔ c.1 < 4096 ∧ m.read rom c.1 = c.2 ∧ c.2 ≠ resetByte rom c.1 := by
  obtain ⟨hsorted, hcells⟩ := hm
  constructor
  · intro hc
    obtain ⟨hlt, hne⟩ := hcells c hc
    exact ⟨hlt, by rw [Memory.read, maskAddr_of_lt hlt, Memory.lookup_of_mem hsorted hc], hne⟩
  · rintro ⟨hlt, hread, hne⟩
    rw [Memory.read, maskAddr_of_lt hlt] at hread
    by_contra hc
    refine hne (hread ▸ Memory.lookup_of_not_mem fun d hd hdc => hc ?_)
    have hval : d.2 = c.2 := by rw [← hread, ← hdc, Memory.lookup_of_mem hsorted hd]
    exact Prod.ext hdc hval ▸ hd

/-- Settles O40: both lists have the same cells, and rising addresses leave one order for them. -/
theorem canonicalMemoriesThatReadAlikeAreEqual : Obligations.CanonicalMemoriesThatReadAlikeAreEqual := by
  intro rom m n hm hn hread
  have hmem : ∀ c, c ∈ m ↔ c ∈ n := fun c => by
    rw [Memory.mem_iff_of_wf hm, Memory.mem_iff_of_wf hn]
    exact and_congr_right fun hlt => by rw [hread c.1 hlt]
  have hasymm : Std.Asymm fun c d : Host.Cell => c.1 < d.1 := ⟨fun _ _ => Nat.lt_asymm⟩
  exact hm.1.eq_of_mem_iff hn.1 hmem

end Sys2Proof.Machine
end

section
/-!
PROOFS. The display family, continued (44_display.md): the two display instructions, and a sprite drawn twice.
-/

namespace Sys2Proof.Machine

open Sys2Proof

/-- A change of the display buffer and of the signal changes the pixels that differ, and the signal. -/
theorem display_changesOnly (s : State) (px : Pixels) (b : Bool) {P : Nat → Nat → Prop}
    (hP : ∀ x y, ¬ P x y → pixelAt px x y = pixelAt s.px x y) :
    changesOnly (fun e => e = .renderNeeded ∨ ∃ x y, e = .pixel x y ∧ P x y) s { s with px := px, renderNeeded := b } := by
  intro e he
  cases e with
  | renderNeeded => exact absurd (.inl rfl) he
  | pixel x y => exact hP x y fun h => he (.inr ⟨x, y, rfl, h⟩)
  | ports => exact ⟨rfl, rfl, rfl, rfl, rfl, rfl⟩
  | _ => rfl

theorem exec_cls (s : State) :
    exec .cls s = .next (State.advance { s with px := Vector.replicate 32 0, renderNeeded := true }) := rfl

/-- Settles O41: the blank buffer has no pixel set. -/
theorem clearBlanksTheDisplay : Obligations.ClearBlanksTheDisplay := by
  intro s
  refine ⟨_, exec_cls s, pixelAt_blank, rfl, s.toNat_pc_advance_eq_pcPlus, changesOnly.setPc ?_ _ (.inl rfl)⟩
  refine (display_changesOnly s _ true (P := fun _ _ => True) fun x y h => absurd trivial h).mono ?_
  rintro e (h | ⟨x, y, h, -⟩)
  · exact .inr (.inl h)
  · exact .inr (.inr ⟨x, y, h⟩)

/-! ## Which sprites cover a pixel at all -/

/-- A nonzero byte has a set bit. -/
theorem exists_getLsbD_of_ne_zero {row : Byte} (h : row ≠ 0) : ∃ b < 8, row.getLsbD b = true := by
  by_contra hc
  refine h (BitVec.eq_of_getLsbD_eq fun b hb => ?_)
  have : row.getLsbD b = false := by simpa using fun hset => hc ⟨b, hb, hset⟩
  rw [this]
  simp

/-- A sprite covers some pixel exactly when some byte of it is nonzero. -/
theorem exists_spriteCovers_iff (x0 y0 : Nat) (rows : List Byte) :
    (∃ x y, spriteCovers x0 y0 rows x y) ↔ ∃ row ∈ rows, row ≠ 0 := by
  constructor
  · rintro ⟨x, y, r, c, -, ⟨row, hrow, hbit⟩, -⟩
    exact ⟨row, List.mem_of_getElem? hrow, fun h => by simp [h] at hbit⟩
  · rintro ⟨row, hmem, hne⟩
    obtain ⟨r, hrow⟩ := List.mem_iff_getElem?.mp hmem
    obtain ⟨b, hb, hbit⟩ := exists_getLsbD_of_ne_zero hne
    have hcolumn : 7 - (7 - b) = b := by omega
    exact ⟨x0 + (7 - b), y0 + r, r, 7 - b, by omega, ⟨row, hrow, by rwa [hcolumn]⟩, rfl, rfl⟩

/-- Settles O44: what the first drawing flips the second flips back, and it meets a set pixel where the first met an unset one. -/
theorem drawingTwiceRestoresTheBuffer : Obligations.DrawingTwiceRestoresTheBuffer := by
  intro x0 y0 rows px hlen
  obtain ⟨hcovered, hkept, -, -⟩ := drawSpriteFlipsTheCoveredPixels x0 y0 rows px hlen
  obtain ⟨hcovered', hkept', hcollision', -⟩ := drawSpriteFlipsTheCoveredPixels x0 y0 rows (drawSprite x0 y0 rows px).px hlen
  have hcollides : (drawSprite x0 y0 rows (drawSprite x0 y0 rows px).px).collision = true ↔
      ∃ x y, spriteCovers x0 y0 rows x y ∧ pixelAt px x y = false := by
    refine hcollision'.trans (exists₂_congr fun x y => and_congr_right fun h => ?_)
    rw [hcovered x y h, Bool.not_eq_true']
  refine ⟨pixels_ext fun x y _ _ => ?_, hcollides, fun hblank => hcollides.trans ?_⟩
  · by_cases h : spriteCovers x0 y0 rows x y
    · rw [hcovered' x y h, hcovered x y h, Bool.not_not]
    · rw [hkept' x y h, hkept x y h]
  · rw [← exists_spriteCovers_iff x0 y0]
    exact exists₂_congr fun x y => and_iff_left_of_imp (hblank x y)

/-! ## `DRW` -/

theorem exec_drw (x y n : Nibble) (s : State) :
    exec (.drw x y n) s = .next (State.advance (State.writeFlag
      { s with
        px := (drawSprite (s.readV x).toNat (s.readV y).toNat (s.spriteRows n) s.px).px
        renderNeeded := s.renderNeeded || (drawSprite (s.readV x).toNat (s.readV y).toNat (s.spriteRows n) s.px).changed }
      (drawSprite (s.readV x).toNat (s.readV y).toNat (s.spriteRows n) s.px).collision)) := rfl

/-- The rows of a sprite are the bytes from `I`. -/
theorem State.spriteRows_eq (s : State) (n : Nibble) (rows : List Byte) (hlen : rows.length = n.toNat)
    (hrows : ∀ k (h : k < rows.length), rows[k] = s.readByte (s.dataAddr k)) : s.spriteRows n = rows := by
  refine List.ext_getElem ((Memory.length_readBytes ..).trans hlen.symm) fun k hk hk' => ?_
  rw [hrows k hk']
  exact Memory.getElem_readBytes ..

/-- Settles O43: the instruction draws the sprite at `I`, and writes its two reports to the signal and, last, to `VF`. -/
theorem drawFlipsPixelsAndReportsCollision : Obligations.DrawFlipsPixelsAndReportsCollision := by
  intro s x y n rows hlen hrows
  have hlen15 : rows.length ≤ 15 := by have := n.isLt; omega
  obtain ⟨hcovered, hkept, hcollision, hchanged⟩ :=
    drawSpriteFlipsTheCoveredPixels (s.readV x).toNat (s.readV y).toNat rows s.px hlen15
  rw [exists_spriteCovers_iff] at hchanged
  rw [exec_drw, s.spriteRows_eq n rows hlen hrows]
  generalize drawSprite (s.readV x).toNat (s.readV y).toNat rows s.px = k at *
  refine ⟨_, rfl, hcovered, fun h => ?_, fun h => ?_, fun h => ?_, fun h => ?_, s.toNat_pc_advance_eq_pcPlus, ?_⟩
  · rw [State.readV_advance, State.readV_writeFlag, if_pos rfl, hcollision.mpr h]
    rfl
  · rw [State.readV_advance, State.readV_writeFlag, if_pos rfl, Bool.eq_false_iff.mpr (mt hcollision.mp h)]
    rfl
  · exact (congrArg _ (hchanged.mpr h)).trans (Bool.or_true _)
  · have hnone : ¬ ∃ row ∈ rows, row ≠ 0 := fun ⟨row, hmem, hne⟩ => hne (h row hmem)
    exact (congrArg _ (Bool.eq_false_iff.mpr (mt hchanged.mp hnone))).trans (Bool.or_false _)
  · refine changesOnly.setPc (changesOnly.trans (t := { s with px := k.px, renderNeeded := s.renderNeeded || k.changed }) ?_ ?_) _
      (.inl rfl)
    · exact (display_changesOnly s k.px _ hkept).mono fun _ h => .inr (.inr h)
    · exact (State.writeV_changesOnly_V _ 15 _).mono fun _ h => .inr (.inl h)

end Sys2Proof.Machine
end

section
/-!
PROOFS. Keys and timers (45_keys_timers.md): the key wait, armed, polled and ended, and the moves between a register and a timer.
-/

namespace Sys2Proof.Machine

open Sys2Proof

/-- Settles O47: the three elements written are those the frame leaves out. -/
theorem keyWaitIsArmed : Obligations.KeyWaitIsArmed := by
  intro s x
  refine ⟨_, rfl, rfl, rfl, rfl, fun e he => ?_⟩
  cases e with
  | waitX => exact absurd (.inl rfl) he
  | keysPrev => exact absurd (.inr (.inl rfl)) he
  | run => exact absurd (.inr (.inr rfl)) he
  | ports => exact ⟨rfl, rfl, rfl, rfl, rfl, rfl⟩
  | _ => rfl

/-! ## The poll of the key wait -/

theorem getLsbD_newlyDown_iff (keys keysPrev : BitVec 16) {k : Nat} (hk : k < 16) :
    (newlyDown keys keysPrev).getLsbD k = true ↔ keys.getLsbD k = true ∧ keysPrev.getLsbD k = false := by
  rw [getLsbD_newlyDown keys keysPrev hk, Bool.and_eq_true, Bool.not_eq_true']

theorem newlyDown_ne_zero_iff (keys keysPrev : BitVec 16) :
    newlyDown keys keysPrev ≠ 0 ↔ ∃ k < 16, keys.getLsbD k = true ∧ keysPrev.getLsbD k = false := by
  constructor
  · intro h
    obtain ⟨k, hk, hdown⟩ := exists_of_newlyDown h
    exact ⟨k, hk, (getLsbD_newlyDown_iff keys keysPrev hk).mp hdown⟩
  · rintro ⟨k, hk, hdown⟩ hzero
    have hset := (getLsbD_newlyDown_iff keys keysPrev hk).mpr hdown
    simp [hzero] at hset

/-- Settles O10: no key is newly down, so the poll takes its first end. -/
theorem waitGoesOnWithoutANewKey : Obligations.WaitGoesOnWithoutANewKey := by
  intro s keys rnd rest hrun hp hkeys
  rw [step_polls hp hrun]
  rcases State.pollWait_cases { s with pending := rest, keys := keys, rnd := rnd, loadOpen := false } with ⟨-, hpoll⟩ | ⟨hne, -⟩
  · rw [hpoll]
  · obtain ⟨k, hk, hdown, hup⟩ := (newlyDown_ne_zero_iff keys s.keysPrev).mp hne
    exact absurd (hup.symm.trans (hkeys k hk hdown)) Bool.false_ne_true

/-- A table's answer is taken when that key went down. -/
theorem pickKey_table {answers : List (BitVec 16 × Nibble)} {down : BitVec 16} {c : Nibble} (n : Nat)
    (hc : answers.lookup down = some c) (hdown : down.getLsbD c.toNat = true) : pickKey (.table answers) n down = c := by
  rw [pickKey, hc, Option.getD_some, pickIfDown, if_pos hdown]

/-- The pick is a key that went down, the lowest by default, a table's answer where that went down (00_scope.md R6). -/
theorem pickKey_spec (pick : Config.KeyPick) (n : Nat) {keys keysPrev : BitVec 16} (h : newlyDown keys keysPrev ≠ 0) :
    ∃ j : Nibble, pickKey pick n (newlyDown keys keysPrev) = j ∧ keys.getLsbD j.toNat = true ∧ keysPrev.getLsbD j.toNat = false ∧
      (pick = .lowest → ∀ i < j.toNat, keys.getLsbD i = true → keysPrev.getLsbD i = true) ∧
      (∀ answers c, pick = .table answers → answers.lookup (keys &&& ~~~keysPrev) = some c →
        keys.getLsbD c.toNat = true → keysPrev.getLsbD c.toNat = false → j = c) := by
  have hsome := exists_of_newlyDown h
  obtain ⟨hdown, hup⟩ := (getLsbD_newlyDown_iff keys keysPrev (BitVec.isLt _)).mp (getLsbD_pickKey pick n hsome)
  refine ⟨_, rfl, hdown, hup, ?_, ?_⟩
  · rintro rfl i hi hiDown
    have hclear : (newlyDown keys keysPrev).getLsbD i = false := (lowestKey_spec hsome).2 i hi
    rw [getLsbD_newlyDown keys keysPrev (Nat.lt_trans hi (BitVec.isLt _)), hiDown, Bool.true_and] at hclear
    simpa using hclear
  · rintro answers c rfl hc hcDown hcUp
    exact pickKey_table n hc ((getLsbD_newlyDown_iff keys keysPrev c.isLt).mpr ⟨hcDown, hcUp⟩)

theorem pickDraws_of_ne_any {pick : Config.KeyPick} (h : pick ≠ .any) : pickDraws pick = 0 := by
  cases pick with
  | any => exact absurd rfl h
  | lowest | table => rfl

theorem toNat_setWidth_nibble (j : Nibble) : (j.setWidth 8 : Byte).toNat = j.toNat := by
  rw [BitVec.toNat_setWidth, Nat.mod_eq_of_lt (Nat.lt_trans j.isLt (by decide))]

/-- Settles O11: the poll takes its second end, and what it delivers is the pick among the keys newly down. -/
theorem waitEndsWithThePickedKey : Obligations.WaitEndsWithThePickedKey := by
  intro s keys rnd rest k hrun hp hk hdown hup
  have hne : newlyDown keys s.keysPrev ≠ 0 := (newlyDown_ne_zero_iff keys s.keysPrev).mpr ⟨k, hk, hdown, hup⟩
  rw [step_polls hp hrun]
  rcases State.pollWait_cases { s with pending := rest, keys := keys, rnd := rnd, loadOpen := false } with ⟨hzero, -⟩ | ⟨-, hpoll⟩
  · exact absurd hzero hne
  obtain ⟨j, hj, hpick⟩ := pickKey_spec s.params.keyPick s.draws hne
  rw [hpoll]
  refine ⟨_, rfl, ⟨j, ?_, hpick⟩, fun r hr => ?_, s.toNat_pc_advance_eq_pcPlus, fun hany => ?_, rfl⟩
  · rw [← toNat_setWidth_nibble, ← hj]
    exact congrArg _ (State.readV_writeV_self _ _ _)
  · exact State.readV_writeV_of_ne _ hr
  · exact (congrArg (s.draws + ·) (pickDraws_of_ne_any hany)).trans (Nat.add_zero _)

/-! ## The moves between a register and a timer -/

theorem setDT_changesOnly (s : State) (v : Byte) : changesOnly (fun e => e = .DT) s { s with DT := v } := by
  intro e he
  cases e with
  | DT => exact absurd rfl he
  | ports => exact ⟨rfl, rfl, rfl, rfl, rfl, rfl⟩
  | _ => rfl

theorem setST_changesOnly (s : State) (v : Byte) : changesOnly (fun e => e = .ST) s { s with ST := v } := by
  intro e he
  cases e with
  | ST => exact absurd rfl he
  | ports => exact ⟨rfl, rfl, rfl, rfl, rfl, rfl⟩
  | _ => rfl

end Sys2Proof.Machine
end

section
/-!
PROOFS. The cycle and the host events (40_cycle.md, 60_exceptions.md, 70_reset_and_hazards.md): what a `Step` runs, and the events
`RenderAck`, `Load` and `Reset`.
-/

namespace Sys2Proof.Machine

open Sys2Proof

/-! ## What a `Step` runs -/

/-- Settles O7: the decoded bytes at `pc` are the fetched word, which an unscripted host turn leaves as it is. -/
theorem stepRunsTheDecodedInstruction : Obligations.StepRunsTheDecodedInstruction := by
  intro s i hrun hdec
  have hword := decodeWord_of_decode_ok hdec
  refine ⟨fun keys rnd rest hp => step_executes hp hrun hword, fun hp => ?_⟩
  rw [step_of_unscripted hp, runCycle_of_run (s := s.hostTurn) hrun, runInstr_of_some (s := s.hostTurn) hword]

theorem setWidth_eq_ofNat (w : Word) : w.setWidth 12 = BitVec.ofNat 12 w.toNat := by
  apply BitVec.eq_of_toNat_eq
  rw [BitVec.toNat_setWidth, BitVec.toNat_ofNat]

/-- Settles O8: the cycle reports the word at `pc` and advances. -/
theorem unknownWordIsReportedAndSkipped : Obligations.UnknownWordIsReportedAndSkipped := by
  intro s w keys rnd rest hrun hp hdec
  obtain ⟨hnone, rfl⟩ := decodeWord_of_decode_error hdec
  refine ⟨_, step_reports hp hrun hnone, s.toNat_pc_advance_eq_pcPlus, ?_, rfl⟩
  rw [State.diag_unknownWord, ← setWidth_eq_ofNat]

/-- Settles O9: the cycle does nothing in `HALT`. -/
theorem haltedCoreIgnoresSteps : Obligations.HaltedCoreIgnoresSteps := fun _ _ _ _ hrun hp => step_ignored hp hrun

/-- A jump to `pc` itself changes nothing: a 12-bit target is stored as it is. -/
theorem State.setPc_self {s : State} (nnn : BitVec 12) (h : nnn.toNat = s.pc.toNat) : s.setPc nnn.toNat = s := by
  have hpc : BitVec.ofNat 16 (nnn.toNat % Config.memSize) = s.pc := by
    apply BitVec.eq_of_toNat_eq
    rw [toNat_masked, memSize_eq, Nat.mod_eq_of_lt nnn.isLt, h]
  rw [State.setPc, hpc]

/-- Settles O59: the `Step` runs the jump to its own address. -/
theorem finishedProgramStaysFinished : Obligations.FinishedProgramStaysFinished := by
  rintro s keys rnd rest ⟨hrun, nnn, hjp, htarget⟩ hp
  rw [step_executes hp hrun hjp, exec_jp]
  exact congrArg _ (State.setPc_self nnn htarget)

/-! ## An unscripted host turn (log 2) -/

theorem timerTick_timerTicks (n : Nat) (t : Byte) : timerTick (timerTicks n t) = timerTicks (n + 1) t := by
  apply BitVec.eq_of_toNat_eq
  rw [toNat_timerTick, toNat_timerTicks, toNat_timerTicks, Nat.sub_sub]

theorem timerTicks_zero (t : Byte) : timerTicks 0 t = t := by
  apply BitVec.eq_of_toNat_eq
  rw [toNat_timerTicks, Nat.sub_zero]

/-- `n` ticks one after the other are `n` ticks of each timer at once. -/
theorem State.iterate_tick (s : State) (n : Nat) :
    State.tick^[n] s = { s with DT := timerTicks n s.DT, ST := timerTicks n s.ST } := by
  induction n with
  | zero => rw [Function.iterate_zero_apply, timerTicks_zero, timerTicks_zero]
  | succ n ih => rw [Function.iterate_succ_apply', ih, State.tick, timerTick_timerTicks, timerTick_timerTicks]

/-- A host turn is its ticks, its acknowledgement if there is one, and its inputs. -/
theorem State.hostTurn_eq (s : State) :
    s.hostTurn =
      { State.present (if Config.freeAck s.draws then (State.tick^[Config.freeTicks s.draws] s).renderAck
          else State.tick^[Config.freeTicks s.draws] s) (Config.freeKeys s.draws) (Config.freeRnd s.draws) with
        draws := s.draws + 1 } := by
  rw [State.iterate_tick, State.hostTurn]
  cases Config.freeAck s.draws with
  | true => rw [Bool.not_true, Bool.and_false]; rfl
  | false => rw [Bool.not_false, Bool.and_true]; rfl

/-- Settles O18: the free values of the turn are the ones asked for. -/
theorem unscriptedTurnIsTicksAckAndStep : Obligations.UnscriptedTurnIsTicksAckAndStep := by
  intro s hp
  refine ⟨Config.freeTicks s.draws, Config.freeAck s.draws, Config.freeKeys s.draws, Config.freeRnd s.draws, _, rfl, ?_⟩
  rw [step_of_unscripted hp, State.hostTurn_eq]

/-! ## `RenderAck` and `Load` -/

/-- Settles O13: the event is delivered whatever `run` is. -/
theorem renderAckClearsTheSignal : Obligations.RenderAckClearsTheSignal := fun _ _ hp => step_of_pending hp

section
variable {s : State} {bytes : List Byte} {rest : List HostEvent}

/-- The three ends of a `Load`: it fits, it does not fit, it is not open. -/
theorem State.load_of_le (hopen : s.loadOpen = true) (hlen : bytes.length ≤ 3584) :
    s.load bytes = .next { s.writeBytes 0x200 bytes with loadOpen := false } := by
  rw [State.load, if_pos hopen, if_pos hlen]

theorem State.load_of_lt (hopen : s.loadOpen = true) (hlen : 3584 < bytes.length) :
    s.load bytes = .next { s.raise .capacityExceeded with loadOpen := false } := by
  rw [State.load, if_pos hopen, if_neg (Nat.not_le.mpr hlen)]

theorem State.load_of_closed (hclosed : s.loadOpen = false) : s.load bytes = .refused .loadNotOpen := by
  rw [State.load, if_neg (by simp [hclosed])]

/-- A `Load` that answers is open, and takes one of the other two ends. -/
theorem State.load_cases {t : State} (h : s.load bytes = .next t) :
    s.loadOpen = true ∧
      ((bytes.length ≤ 3584 ∧ t = { s.writeBytes 0x200 bytes with loadOpen := false }) ∨
        (3584 < bytes.length ∧ t = { s.raise .capacityExceeded with loadOpen := false })) := by
  cases hopen : s.loadOpen with
  | false =>
    rw [State.load_of_closed hopen] at h
    cases h
  | true =>
    refine ⟨rfl, ?_⟩
    rcases Nat.lt_or_ge 3584 bytes.length with hlen | hlen
    · rw [State.load_of_lt hopen hlen] at h
      cases h
      exact .inr ⟨hlen, rfl⟩
    · rw [State.load_of_le hopen hlen] at h
      cases h
      exact .inl ⟨hlen, rfl⟩

/-- An open `Load` answers. -/
theorem State.load_answers (bytes : List Byte) (hopen : s.loadOpen = true) : ∃ t, s.load bytes = .next t := by
  rcases Nat.lt_or_ge 3584 bytes.length with hlen | hlen
  · exact ⟨_, State.load_of_lt hopen hlen⟩
  · exact ⟨_, State.load_of_le hopen hlen⟩

theorem step_of_load (hp : s.pending = .load bytes :: rest) : step s = State.load { s with pending := rest } bytes :=
  step_of_pending hp

end

/-- Settles O14: a program that fits ends below 4096, so no byte of it meets another or the glyph table. -/
theorem loadCopiesTheProgram : Obligations.LoadCopiesTheProgram := by
  intro s bytes rest hp hopen hlen
  have hfits : ∀ k < bytes.length, (0x200 + k) % 4096 = 0x200 + k := fun k hk => Nat.mod_eq_of_lt (by omega)
  refine ⟨_, (step_of_load hp).trans (State.load_of_le hopen hlen), fun k hk => ?_, fun a ha => ?_, rfl⟩
  · refine Memory.read_writeBytes bytes s.mem 0x200 (0x200 + k) k hk (Nat.le_trans hlen (by decide)) rfl ?_
    rw [maskAddr_eq, hfits k hk, glyphEnd_eq]
    omega
  · refine Memory.read_writeBytes_of_ne bytes s.mem 0x200 a fun k hk => ?_
    rw [maskAddr_eq, maskAddr_eq, hfits k hk]
    exact ha k hk

/-- Settles O15: the branch of `Load` for a program that does not fit. -/
theorem loadOverCapacityHalts : Obligations.LoadOverCapacityHalts := fun _ _ _ hp hopen hlen =>
  (step_of_load hp).trans (State.load_of_lt hopen hlen)

/-! ## `Reset` -/

/-- Memory right after `Reset` reads as `GLYPH_ROM` below 0x50. -/
theorem Memory.read_nil_glyph (rom : Config.GlyphRom) (a : Nat) (h : a < 80) : Memory.read [] rom a = rom[a] := by
  rw [Memory.read_nil, maskAddr_of_lt (Nat.lt_trans h (by decide)), resetByte, dif_pos h]

/-- Memory right after `Reset` reads as zero from 0x50 on. -/
theorem Memory.read_nil_zero (rom : Config.GlyphRom) (a : Nat) (h : 0x50 ≤ a) (h' : a < 4096) : Memory.read [] rom a = 0 := by
  rw [Memory.read_nil, maskAddr_of_lt h', resetByte_of_ge h]

/-- Settles O16: the reset state element by element. -/
theorem resetEventRestoresEveryElement : Obligations.ResetEventRestoresEveryElement := by
  intro s rest hp
  exact ⟨_, step_of_pending hp, rfl, fun r => Vector.getElem_replicate r.isLt, rfl, rfl, fun k => Vector.getElem_replicate k.isLt,
    rfl, rfl, pixelAt_blank, rfl, rfl, rfl, rfl, rfl, Memory.read_nil_glyph _, Memory.read_nil_zero _, rfl, rfl, rfl, rfl, rfl,
    rfl, rfl⟩

/-- Settles O17: only the parameters of the reset state depend on the parameters. -/
theorem resetStateIsTheDocuments : Obligations.ResetStateIsTheDocuments :=
  ⟨fun p => ⟨rfl, rfl, Memory.read_nil_glyph p.glyphRom, rfl, pixelAt_blank⟩, rfl⟩

end Sys2Proof.Machine
end

section
/-!
PROOFS. Rules over all instructions: which element each writes (10_state.md, 20_memory.md), and what an instruction does on two machines
that differ in a timer or in `SHIFT_SRC`.
-/

namespace Sys2Proof.Machine

open Sys2Proof

/-! ## Named writers -/

/-- Settles O52: instruction by instruction; every other one leaves all six groups as they were. -/
theorem stateElementsHaveNamedWriters : Obligations.StateElementsHaveNamedWriters := by
  intro i s t he
  cases i with
  | ldB x =>
    cases he
    exact ⟨.inr ⟨x, .inl rfl⟩, .inl ⟨rfl, rfl⟩, .inl ⟨rfl, rfl⟩, .inl rfl, .inl rfl, .inl rfl⟩
  | stRegs x =>
    cases he
    exact ⟨.inr ⟨x, .inr rfl⟩, .inl ⟨rfl, rfl⟩, .inl ⟨rfl, rfl⟩, .inl rfl, .inl rfl, .inl rfl⟩
  | cls =>
    cases he
    exact ⟨.inl rfl, .inr (.inl rfl), .inl ⟨rfl, rfl⟩, .inl rfl, .inl rfl, .inl rfl⟩
  | drw x y n =>
    cases he
    exact ⟨.inl rfl, .inr (.inr ⟨x, y, n, rfl⟩), .inl ⟨rfl, rfl⟩, .inl rfl, .inl rfl, .inl rfl⟩
  | ret =>
    rcases exec_ret_cases s with ⟨_, he'⟩ | ⟨_, he'⟩ <;> cases eq_of_exec_eq he he' <;>
      exact ⟨.inl rfl, .inl ⟨rfl, rfl⟩, .inr (.inl rfl), .inl rfl, .inl rfl, .inl rfl⟩
  | call nnn =>
    rcases exec_call_cases nnn s with ⟨_, he'⟩ | ⟨_, he'⟩ <;> cases eq_of_exec_eq he he' <;>
      exact ⟨.inl rfl, .inl ⟨rfl, rfl⟩, .inr (.inr ⟨nnn, rfl⟩), .inl rfl, .inl rfl, .inl rfl⟩
  | ldI nnn =>
    cases he
    exact ⟨.inl rfl, .inl ⟨rfl, rfl⟩, .inl ⟨rfl, rfl⟩, .inr (.inl ⟨nnn, rfl⟩), .inl rfl, .inl rfl⟩
  | addI x =>
    cases he
    exact ⟨.inl rfl, .inl ⟨rfl, rfl⟩, .inl ⟨rfl, rfl⟩, .inr (.inr ⟨x, .inl rfl⟩), .inl rfl, .inl rfl⟩
  | ldF x =>
    cases he
    exact ⟨.inl rfl, .inl ⟨rfl, rfl⟩, .inl ⟨rfl, rfl⟩, .inr (.inr ⟨x, .inr rfl⟩), .inl rfl, .inl rfl⟩
  | ldDtV x =>
    cases he
    exact ⟨.inl rfl, .inl ⟨rfl, rfl⟩, .inl ⟨rfl, rfl⟩, .inl rfl, .inr ⟨x, rfl⟩, .inl rfl⟩
  | ldStV x =>
    cases he
    exact ⟨.inl rfl, .inl ⟨rfl, rfl⟩, .inl ⟨rfl, rfl⟩, .inl rfl, .inl rfl, .inr ⟨x, rfl⟩⟩
  | seK | sneK | seV | sneV | skp | sknp =>
    cases he
    rw [State.skipIf_eq_setPc]
    exact ⟨.inl rfl, .inl ⟨rfl, rfl⟩, .inl ⟨rfl, rfl⟩, .inl rfl, .inl rfl, .inl rfl⟩
  | _ =>
    cases he
    exact ⟨.inl rfl, .inl ⟨rfl, rfl⟩, .inl ⟨rfl, rfl⟩, .inl rfl, .inl rfl, .inl rfl⟩

/-- Settles O51: the two instructions that write memory store by `Memory.writeBytes`, which discards a store into the table. -/
theorem noInstructionAltersTheGlyphTable : Obligations.NoInstructionAltersTheGlyphTable := by
  intro i s t a ha he
  obtain ⟨-, -, -, -, -, -, hparams⟩ := exec_ports he
  obtain ⟨hmem | ⟨x, rfl | rfl⟩, -⟩ := stateElementsHaveNamedWriters i s t he
  · rw [State.readByte, hmem, hparams, State.readByte]
  · cases he
    exact Memory.read_writeBytes_glyph _ s.mem _ ha
  · cases he
    exact Memory.read_writeBytes_glyph _ s.mem _ ha

/-! ## `VF` -/

theorem flagByte_eq_zero_or_one (b : Bool) : flagByte b = 0 ∨ flagByte b = 1 := by
  cases b
  · exact .inl rfl
  · exact .inr rfl

theorem State.readV_flag_writeResultFlag (s : State) (x : Nibble) (v : Byte) (b : Bool) :
    (s.writeResultFlag x v b).readV 15 = 0 ∨ (s.writeResultFlag x v b).readV 15 = 1 := by
  obtain ⟨hflag, -⟩ := s.writeResultFlag_spec x v b
  exact hflag ▸ flagByte_eq_zero_or_one b

theorem State.readV_writeResult_of_ne {s : State} {x q : Nibble} (v : Byte) (h : x ≠ q) :
    (s.writeResult x v).readV q = s.readV q :=
  State.readV_writeV_of_ne v h.symm

/-- `CALL` and `RET` leave every register alone. -/
theorem exec_call_V {nnn : BitVec 12} {s t : State} (he : exec (.call nnn) s = .next t) : t.V = s.V := by
  rcases exec_call_cases nnn s with ⟨_, he'⟩ | ⟨_, he'⟩ <;> cases eq_of_exec_eq he he' <;> rfl

theorem exec_ret_V {s t : State} (he : exec .ret s = .next t) : t.V = s.V := by
  rcases exec_ret_cases s with ⟨_, he'⟩ | ⟨_, he'⟩ <;> cases eq_of_exec_eq he he' <;> rfl

theorem State.readV_congr {s t : State} (h : t.V = s.V) (r : Nibble) : t.readV r = s.readV r := by
  rw [State.readV, h, State.readV]

/-- Settles O53: the six forms end with a flag; a form with a register result and `X` other than 15 misses `VF`; the others write no
register. -/
theorem onlySixFormsWriteTheFlag : Obligations.OnlySixFormsWriteTheFlag := by
  intro i s t he
  refine ⟨?_, fun hflag hdata => ?_⟩
  · rintro ⟨x, y, rfl | rfl | rfl | rfl | rfl | ⟨n, rfl⟩⟩ <;> cases he
    pick_goal 6
    · rw [State.readV_advance, State.readV_writeFlag, if_pos rfl]
      exact flagByte_eq_zero_or_one _
    all_goals exact State.readV_flag_writeResultFlag ..
  · cases i with
    | addV x y | sub x y | shr x y | subn x y | shl x y | drw x y => exact absurd ⟨x, y, by simp⟩ hflag
    | ldK x | addK x | rnd x | ldV x | orV x | andV x | xorV x | ldVDt x =>
      cases he
      exact State.readV_writeResult_of_ne _ (by rintro rfl; simp at hdata)
    | ldRegs x =>
      cases he
      refine (s.readV_loadRegBytes x 15).trans (if_neg fun h => ?_)
      have hx : x = 15 := BitVec.eq_of_toNat_eq (by have := x.isLt; simp [BitVec.le_def] at h ⊢; omega)
      simp [hx] at hdata
    | call nnn => exact State.readV_congr (exec_call_V he) 15
    | ret => exact State.readV_congr (exec_ret_V he) 15
    | seK | sneK | seV | sneV | skp | sknp =>
      cases he
      exact State.readV_skipIf ..
    | _ =>
      cases he
      rfl

/-! ## Machines that differ in the timers -/

/-- No instruction but `LD_V_DT` has registers to leave that depend on a timer (10_state.md R40). -/
theorem exec_V_of_timers {i : Instr} {s t : State} (dt st : Byte) (hi : ∀ x, i ≠ .ldVDt x) (he : exec i s = .next t) :
    ∃ u, exec i { s with DT := dt, ST := st } = .next u ∧ u.V = t.V := by
  cases i with
  | ldVDt x => exact absurd rfl (hi x)
  | call nnn =>
    obtain ⟨u, hu⟩ := exec_answers (.call nnn) { s with DT := dt, ST := st }
    exact ⟨u, hu, (exec_call_V hu).trans (exec_call_V he).symm⟩
  | ret =>
    obtain ⟨u, hu⟩ := exec_answers .ret { s with DT := dt, ST := st }
    exact ⟨u, hu, (exec_ret_V hu).trans (exec_ret_V he).symm⟩
  | seK | sneK | seV | sneV | skp | sknp =>
    cases he
    exact ⟨_, rfl, (State.V_skipIf ..).trans (State.V_skipIf s _).symm⟩
  | _ =>
    cases he
    exact ⟨_, rfl, rfl⟩

/-- Settles O46: the three moves one by one, then the rules over all instructions. -/
theorem timersAreReadAndSet : Obligations.TimersAreReadAndSet := by
  refine ⟨fun s x => ⟨⟨_, rfl, s.writeResult_spec x s.DT⟩, ⟨_, rfl, rfl, s.toNat_pc_advance_eq_pcPlus, ?_⟩,
    ⟨_, rfl, rfl, s.toNat_pc_advance_eq_pcPlus, ?_⟩⟩, fun i s t he => ?_, fun i s t dt st hi he => exec_V_of_timers dt st hi he⟩
  · exact ((setDT_changesOnly s (s.readV x)).mono fun _ => .inl).setPc _ (.inr rfl)
  · exact ((setST_changesOnly s (s.readV x)).mono fun _ => .inl).setPc _ (.inr rfl)
  · obtain ⟨-, -, -, -, htimers⟩ := stateElementsHaveNamedWriters i s t he
    exact htimers

/-! ## Machines that differ in `SHIFT_SRC`, the sound timer and the render-needed signal -/

/-- The machine with another `SHIFT_SRC`, another sound timer and another render-needed signal. -/
def State.aside (s : State) (src : Config.ShiftSrc) (st : Byte) (signal : Bool) : State :=
  { s with params := { s.params with shiftSrc := src }, ST := st, renderNeeded := signal }

theorem shiftOperand_congr {src src' : Config.ShiftSrc} {x y : Nibble} (h : src = src' ∨ x = y) :
    shiftOperand src x y = shiftOperand src' x y := by
  rcases h with rfl | rfl
  · rfl
  · rw [shiftOperand_eq_ite, shiftOperand_eq_ite, ite_self, ite_self]

/-- An instruction reads neither the sound timer nor the signal, and `SHIFT_SRC` only as a shift of distinct registers: the answers
differ in these three at most, and not in a timer or signal that did not differ before. -/
theorem exec_aside {i : Instr} {s t : State} (src : Config.ShiftSrc) (st : Byte) (signal : Bool)
    (hi : src = s.params.shiftSrc ∨ ∀ x y, i = .shr x y ∨ i = .shl x y → x = y) (he : exec i s = .next t) :
    ∃ st' signal', exec i (s.aside src st signal) = .next (t.aside src st' signal') ∧
      (st = s.ST → st' = t.ST) ∧ (signal = s.renderNeeded → signal' = t.renderNeeded) := by
  cases i with
  | shr x y =>
    have hsrc := shiftOperand_congr (hi.imp_right fun h => h x y (.inl rfl))
    rw [exec_shr, ← hsrc] at he
    cases he
    exact ⟨st, signal, rfl, id, id⟩
  | shl x y =>
    have hsrc := shiftOperand_congr (hi.imp_right fun h => h x y (.inr rfl))
    rw [exec_shl, ← hsrc] at he
    cases he
    exact ⟨st, signal, rfl, id, id⟩
  | call nnn =>
    by_cases hsp : s.SP.val < 16
    · cases eq_of_exec_eq he (exec_call_of_lt nnn hsp)
      exact ⟨st, signal, exec_call_of_lt (s := s.aside src st signal) nnn hsp, id, id⟩
    · have hfull : s.SP.val = 16 := by omega
      cases eq_of_exec_eq he (exec_call_of_full nnn hfull)
      exact ⟨st, signal, exec_call_of_full (s := s.aside src st signal) nnn hfull, id, id⟩
  | ret =>
    by_cases hsp : 0 < s.SP.val
    · cases eq_of_exec_eq he (exec_ret_of_pos hsp)
      exact ⟨st, signal, exec_ret_of_pos (s := s.aside src st signal) hsp, id, id⟩
    · have hempty : s.SP.val = 0 := by omega
      cases eq_of_exec_eq he (exec_ret_of_empty hempty)
      exact ⟨st, signal, exec_ret_of_empty (s := s.aside src st signal) hempty, id, id⟩
  | seK | sneK | seV | sneV | skp | sknp =>
    cases he
    rw [State.skipIf_eq_setPc]
    exact ⟨st, signal, congrArg _ (State.skipIf_eq_setPc ..), id, id⟩
  | ldStV x =>
    cases he
    exact ⟨s.readV x, signal, rfl, fun _ => rfl, id⟩
  | cls =>
    cases he
    exact ⟨st, true, rfl, id, fun _ => rfl⟩
  | drw x y n =>
    cases he
    exact ⟨st, signal || (drawSprite (s.readV x).toNat (s.readV y).toNat (s.spriteRows n) s.px).changed, rfl, id, fun h => h ▸ rfl⟩
  | _ =>
    cases he
    exact ⟨st, signal, rfl, id, id⟩

/-- Settles O32: the other machine has the same timer and signal, and so has its answer; with `VX` both shifts read `V[X]`, whatever `Y`
is. -/
theorem shiftSourceMattersOnlyForDistinctRegisters : Obligations.ShiftSourceMattersOnlyForDistinctRegisters := by
  refine ⟨fun i s t src hi he => ?_, fun s x y z hvx => ?_⟩
  · obtain ⟨st', signal', hother, hst, hsignal⟩ := exec_aside src s.ST s.renderNeeded (.inr hi) he
    obtain rfl := hst rfl
    obtain rfl := hsignal rfl
    obtain ⟨-, -, -, -, -, -, hparams⟩ := exec_ports he
    simp only [State.aside, hparams] at hother
    exact hother
  · simp only [exec_shr, exec_shl, hvx, shiftOperand, and_self]

/-! ## The sound timer and the signal, from an instruction to a run -/

/-- The machine with another sound timer and another render-needed signal. -/
def State.withSound (s : State) (st : Byte) (signal : Bool) : State :=
  { s with ST := st, renderNeeded := signal }

/-- `f` answers `s` what it answers whatever the sound timer and the signal hold: the answer differs in these two at most. -/
def SoundInvisible (f : State → Host.Outcome State Fault Refusal) (s : State) : Prop :=
  ∀ t st signal, f s = .next t → ∃ st' signal', f (s.withSound st signal) = .next (t.withSound st' signal')

theorem exec_soundInvisible (i : Instr) (s : State) : SoundInvisible (exec i) s := by
  intro t st signal he
  obtain ⟨st', signal', hother, -, -⟩ := exec_aside s.params.shiftSrc st signal (.inl rfl) he
  obtain ⟨-, -, -, -, -, -, hparams⟩ := exec_ports he
  refine ⟨st', signal', hother.trans ?_⟩
  rw [State.aside, ← hparams, State.withSound]

theorem State.pollWait_withSound (s : State) (st : Byte) (signal : Bool) :
    (s.withSound st signal).pollWait = s.pollWait.withSound st signal := by
  by_cases h : newlyDown s.keys s.keysPrev = 0
  · simp only [State.pollWait, State.withSound, h, if_true]
  · simp only [State.pollWait, State.withSound, h, if_false]
    rfl

theorem runCycle_soundInvisible (s : State) : SoundInvisible runCycle s := by
  intro t st signal h
  cases hrun : s.run with
  | run =>
    rw [runCycle_of_run hrun] at h
    rw [runCycle_of_run (s := s.withSound st signal) hrun]
    cases hdec : decodeWord s.fetchWord with
    | some i =>
      rw [runInstr_of_some hdec] at h
      rw [runInstr_of_some (s := s.withSound st signal) hdec]
      exact exec_soundInvisible i s t st signal h
    | none =>
      rw [runInstr_of_none hdec] at h
      cases h
      exact ⟨st, signal, runInstr_of_none (s := s.withSound st signal) hdec⟩
  | wait =>
    rw [runCycle_of_wait hrun] at h
    cases h
    refine ⟨st, signal, (runCycle_of_wait (s := s.withSound st signal) hrun).trans ?_⟩
    rw [State.pollWait_withSound]
  | halt =>
    rw [runCycle_of_halt hrun] at h
    cases h
    exact ⟨st, signal, runCycle_of_halt (s := s.withSound st signal) hrun⟩

theorem deliver_soundInvisible (e : HostEvent) (s : State) : SoundInvisible (deliver e) s := by
  intro t st signal h
  cases e with
  | reset =>
    cases h
    exact ⟨0, false, rfl⟩
  | load bytes =>
    obtain ⟨hopen, ⟨hlen, rfl⟩ | ⟨hlen, rfl⟩⟩ := State.load_cases h
    · exact ⟨st, signal, State.load_of_le (s := s.withSound st signal) hopen hlen⟩
    · exact ⟨st, signal, State.load_of_lt (s := s.withSound st signal) hopen hlen⟩
  | step keys rnd => exact runCycle_soundInvisible (s.present keys rnd) t st signal h
  | tick =>
    cases h
    exact ⟨timerTick st, signal, rfl⟩
  | renderAck =>
    cases h
    exact ⟨st, false, rfl⟩

/-- One step of the induction below. -/
theorem step_soundInvisible (s : State) : SoundInvisible step s := by
  intro t st signal h
  cases hp : s.pending with
  | nil =>
    rw [step_of_unscripted hp] at h
    rw [step_of_unscripted (s := s.withSound st signal) hp]
    exact runCycle_soundInvisible s.hostTurn t _ _ h
  | cons e rest =>
    rw [step_of_pending hp] at h
    rw [step_of_pending (s := s.withSound st signal) hp]
    exact deliver_soundInvisible e { s with pending := rest } t st signal h

/-- A run of one step more is that step, answered, and the run from its answer. -/
theorem run_succ_eq_next (M : Host.Core) {n : Nat} {s t : M.State} :
    M.run (n + 1) s = .next t ↔ ∃ s', M.step s = .next s' ∧ M.run n s' = .next t := by
  rw [Host.Core.run]
  cases M.step s <;> simp

/-- Settles O60: by induction on the number of steps, over all values of the two elements. -/
theorem soundTimerAndSignalAreInvisible : Obligations.SoundTimerAndSignalAreInvisible := by
  intro n
  induction n with
  | zero =>
    intro s t st signal h
    cases h
    exact ⟨st, signal, rfl⟩
  | succ n ih =>
    intro s t st signal h
    obtain ⟨s', hstep, hrun⟩ := (run_succ_eq_next Sys2Proof.core).mp h
    obtain ⟨st₁, signal₁, hstep'⟩ := step_soundInvisible s s' st signal hstep
    obtain ⟨st₂, signal₂, hrun'⟩ := ih s' t st₁ signal₁ hrun
    exact ⟨st₂, signal₂, (run_succ_eq_next Sys2Proof.core).mpr ⟨_, hstep', hrun'⟩⟩

end Sys2Proof.Machine
end

section
/-!
PROOFS. What one step can do, case by case, and the rules over every step: `HALT`, `WAIT`, the reports, the tone.
-/

namespace Sys2Proof.Machine

open Sys2Proof

/-! ## The cases of a step -/

/-- `u` is `s` with the inputs of a `Step` presented, a scheduled one or that of an unscripted host turn: it differs from `s` in the
timers, the signal and the ports at most, and a `Load` has no meaning in it. -/
structure AtCycle (s u : State) : Prop where
  scheduled : s.pending = [] ∨ ∃ keys rnd rest, s.pending = .step keys rnd :: rest
  eq : u = { s with DT := u.DT, ST := u.ST, renderNeeded := u.renderNeeded, keys := u.keys, rnd := u.rnd, pending := u.pending,
                    draws := u.draws, loadOpen := false }

section
variable {s u : State}

theorem AtCycle.run_eq (hu : AtCycle s u) : u.run = s.run := by rw [hu.eq]
theorem AtCycle.pc_eq (hu : AtCycle s u) : u.pc = s.pc := by rw [hu.eq]
theorem AtCycle.SP_eq (hu : AtCycle s u) : u.SP = s.SP := by rw [hu.eq]
theorem AtCycle.keysPrev_eq (hu : AtCycle s u) : u.keysPrev = s.keysPrev := by rw [hu.eq]
theorem AtCycle.diag_eq (hu : AtCycle s u) : u.diag = s.diag := by rw [hu.eq]
theorem AtCycle.fetchWord_eq (hu : AtCycle s u) : u.fetchWord = s.fetchWord := by rw [hu.eq]; rfl

end

/-- The cases of a step from `s` to `t`: a `Step` that executes an instruction, reports an unknown word, polls the keys or finds the core
halted; or one of the other four events. -/
inductive StepCase (s t : State) : Prop
  | executes (u : State) (i : Instr) (hu : AtCycle s u) (hrun : s.run = .run) (hdec : decodeWord s.fetchWord = some i)
      (hexec : exec i u = .next t)
  | reports (u : State) (hu : AtCycle s u) (hrun : s.run = .run) (hdec : decodeWord s.fetchWord = none)
      (ht : t = u.unknownWord s.fetchWord)
  | polls (u : State) (hu : AtCycle s u) (hrun : s.run = .wait) (ht : t = u.pollWait)
  | ignores (hu : AtCycle s t) (hrun : s.run = .halt)
  | resets (rest : List HostEvent) (hp : s.pending = .reset :: rest) (ht : t = State.resetEvent { s with pending := rest })
  | loads (bytes : List Byte) (rest : List HostEvent) (hp : s.pending = .load bytes :: rest) (hopen : s.loadOpen = true)
      (ht : t = { State.writeBytes { s with pending := rest } 0x200 bytes with loadOpen := false })
  | overflows (bytes : List Byte) (rest : List HostEvent) (hp : s.pending = .load bytes :: rest) (hopen : s.loadOpen = true)
      (hlen : 3584 < bytes.length) (ht : t = { State.raise { s with pending := rest } .capacityExceeded with loadOpen := false })
  | ticks (rest : List HostEvent) (hp : s.pending = .tick :: rest) (ht : t = State.tick { s with pending := rest })
  | acknowledges (rest : List HostEvent) (hp : s.pending = .renderAck :: rest) (ht : t = State.renderAck { s with pending := rest })

/-- A cycle is the first four cases. -/
theorem stepCase_of_runCycle {s t u : State} (hu : AtCycle s u) (h : runCycle u = .next t) : StepCase s t := by
  cases hrun : s.run with
  | run =>
    rw [runCycle_of_run (hu.run_eq.trans hrun)] at h
    cases hdec : decodeWord s.fetchWord with
    | some i =>
      rw [runInstr_of_some (hu.fetchWord_eq ▸ hdec)] at h
      exact .executes u i hu hrun hdec h
    | none =>
      rw [runInstr_of_none (hu.fetchWord_eq ▸ hdec), hu.fetchWord_eq] at h
      injection h with h
      exact .reports u hu hrun hdec h.symm
  | wait =>
    rw [runCycle_of_wait (hu.run_eq.trans hrun)] at h
    injection h with h
    exact .polls u hu hrun h.symm
  | halt =>
    rw [runCycle_of_halt (hu.run_eq.trans hrun)] at h
    injection h with h
    exact .ignores (h ▸ hu) hrun

theorem stepCase_of_step {s t : State} (h : step s = .next t) : StepCase s t := by
  cases hp : s.pending with
  | nil =>
    rw [step_of_unscripted hp] at h
    exact stepCase_of_runCycle ⟨.inl hp, rfl⟩ h
  | cons e rest =>
    rw [step_of_pending hp] at h
    cases e with
    | step keys rnd => exact stepCase_of_runCycle ⟨.inr ⟨keys, rnd, rest, hp⟩, rfl⟩ h
    | load bytes =>
      obtain ⟨hopen, ⟨-, ht⟩ | ⟨hlen, ht⟩⟩ := State.load_cases h
      · exact .loads bytes rest hp hopen ht
      · exact .overflows bytes rest hp hopen hlen ht
    | reset =>
      injection h with h
      exact .resets rest hp h.symm
    | tick =>
      injection h with h
      exact .ticks rest hp h.symm
    | renderAck =>
      injection h with h
      exact .acknowledges rest hp h.symm

/-! ## Which steps answer -/

/-- Settles O50: the cycle always answers, and a `Load` is the only other event that may not. -/
theorem everyStepAnswers : Obligations.EveryStepAnswers := by
  intro s
  have hrefused : (s.loadOpen = false ∧ ∃ bytes rest, s.pending = .load bytes :: rest) → step s = .refused .loadNotOpen := by
    rintro ⟨hclosed, bytes, rest, hp⟩
    exact (step_of_load hp).trans (State.load_of_closed hclosed)
  refine ⟨⟨fun ⟨t, h⟩ hload => ?_, fun hload => ?_⟩, hrefused⟩
  · rw [hrefused hload] at h
    cases h
  cases hp : s.pending with
  | nil =>
    rw [step_of_unscripted hp]
    exact runCycle_answers _
  | cons e rest =>
    rw [step_of_pending hp]
    cases e with
    | step keys rnd => exact runCycle_answers _
    | load bytes =>
      have hopen : s.loadOpen = true := by
        by_contra hclosed
        exact hload ⟨Bool.eq_false_iff.mpr hclosed, bytes, rest, hp⟩
      exact State.load_answers bytes hopen
    | reset | tick | renderAck => exact ⟨_, rfl⟩

/-! ## What a step does to `run` -/

/-- A step from `s` to `t` by what it does to `run`: nothing, a fatal condition, the beginning and the end of a key wait, a `Reset`. -/
inductive RunCase (s t : State) : Prop
  | same (hrun : t.run = s.run)
  | callOverflows (nnn : BitVec 12) (hfrom : s.run = .run) (hdec : decodeWord s.fetchWord = some (.call nnn))
      (hsp : s.SP.val = 16) (hfault : t.fault = some .stackOverflow) (hrun : t.run = .halt)
  | retUnderflows (hfrom : s.run = .run) (hdec : decodeWord s.fetchWord = some .ret) (hsp : s.SP.val = 0)
      (hfault : t.fault = some .stackUnderflow) (hrun : t.run = .halt)
  | loadOverflows (bytes : List Byte) (rest : List HostEvent) (hp : s.pending = .load bytes :: rest) (hopen : s.loadOpen = true)
      (hlen : 3584 < bytes.length) (hfault : t.fault = some .capacityExceeded) (hrun : t.run = .halt)
  | waits (x : Nibble) (hfrom : s.run = .run) (hdec : decodeWord s.fetchWord = some (.ldVKey x)) (hx : t.waitX = x)
      (hpc : t.pc = s.pc) (hrun : t.run = .wait)
  | wakes (hkey : ∃ k < 16, t.keys.getLsbD k = true ∧ s.keysPrev.getLsbD k = false) (hrun : t.run = .run)
  | resets (rest : List HostEvent) (hp : s.pending = .reset :: rest) (hrun : t.run = .run)

theorem runCase_of_step {s t : State} (h : step s = .next t) : RunCase s t := by
  cases stepCase_of_step h with
  | executes u i hu hrun hdec hexec =>
    rcases exec_run_cases hexec with ⟨rfl, hempty, rfl⟩ | ⟨nnn, rfl, hfull, rfl⟩ | ⟨x, rfl, rfl⟩ | ⟨hsame, -⟩
    · exact .retUnderflows hrun hdec (hu.SP_eq ▸ hempty) rfl rfl
    · exact .callOverflows nnn hrun hdec (hu.SP_eq ▸ hfull) rfl rfl
    · exact .waits x hrun hdec rfl hu.pc_eq rfl
    · exact .same (hsame.trans hu.run_eq)
  | reports u hu hrun hdec ht => exact .same (ht ▸ hu.run_eq)
  | polls u hu hrun ht =>
    rcases u.pollWait_cases with ⟨-, hpoll⟩ | ⟨hdown, hpoll⟩ <;> rw [hpoll] at ht <;> subst ht
    · exact .same hu.run_eq
    · exact .wakes (hu.keysPrev_eq ▸ (newlyDown_ne_zero_iff u.keys u.keysPrev).mp hdown) rfl
  | ignores hu hrun => exact .same hu.run_eq
  | resets rest hp ht => exact .resets rest hp (ht ▸ rfl)
  | overflows bytes rest hp hopen hlen ht => exact .loadOverflows bytes rest hp hopen hlen (ht ▸ rfl) (ht ▸ rfl)
  | loads _ _ _ _ ht | ticks _ _ ht | acknowledges _ _ ht => exact .same (ht ▸ rfl)

/-! ## `HALT` and `WAIT` -/

/-- Settles O54: of the changes of `run` three lead to `HALT`. -/
theorem haltIsEnteredOnlyByTheFatalConditions : Obligations.HaltIsEnteredOnlyByTheFatalConditions := by
  intro s t h hnot hhalt
  cases runCase_of_step h with
  | same hrun => exact absurd (hrun.symm.trans hhalt) hnot
  | callOverflows nnn _ hdec hsp hfault => exact .inl ⟨nnn, hdec, hsp, hfault⟩
  | retUnderflows _ hdec hsp hfault => exact .inr (.inl ⟨hdec, hsp, hfault⟩)
  | loadOverflows bytes rest hp _ hlen hfault => exact .inr (.inr ⟨bytes, rest, hp, hlen, hfault⟩)
  | waits _ _ _ _ _ hrun | wakes _ hrun | resets _ _ hrun => cases hhalt.symm.trans hrun

/-- Out of `RUN` no `Load` is open. -/
theorem State.Inv.loadOpen_of_ne_run {s : State} (h : s.Inv) (hrun : s.run ≠ .run) : s.loadOpen = false :=
  Bool.eq_false_iff.mpr fun hopen => hrun (h.load_open hopen)

/-- Settles O55: the cycle ignores a `Step` in `HALT`, and no `Load` is open there. -/
theorem haltIsLeftOnlyByReset : Obligations.HaltIsLeftOnlyByReset := by
  intro s t hinv h hhalt
  have hclosed : s.loadOpen = false := hinv.loadOpen_of_ne_run (by rw [hhalt]; exact RunState.noConfusion)
  cases stepCase_of_step h with
  | executes _ _ _ hrun | reports _ _ hrun | polls _ _ hrun => cases hhalt.symm.trans hrun
  | ignores hu hrun => exact .inr (hu.eq.trans (by rw [← hclosed]))
  | resets rest hp ht => exact .inl ⟨rest, hp⟩
  | loads _ _ _ hopen | overflows _ _ _ hopen => cases hclosed.symm.trans hopen
  | ticks _ _ ht | acknowledges _ _ ht =>
    subst ht
    exact .inr rfl

/-- Settles O56: of the changes of `run` one leads to `WAIT`, and from `WAIT`, where no `Load` is open, two lead away. -/
theorem waitIsEnteredByTheKeyInstructionOnly : Obligations.WaitIsEnteredByTheKeyInstructionOnly := by
  intro s t hinv h
  refine ⟨fun hnot hwait => ?_, fun hwait hleft => ?_⟩
  · cases runCase_of_step h with
    | same hrun => exact absurd (hrun.symm.trans hwait) hnot
    | waits x _ hdec hx hpc => exact ⟨x, hdec, hx, hpc⟩
    | callOverflows _ _ _ _ _ hrun | retUnderflows _ _ _ _ hrun | loadOverflows _ _ _ _ _ _ hrun | wakes _ hrun | resets _ _ hrun =>
      cases hwait.symm.trans hrun
  · have hnotRun : s.run ≠ .run := by rw [hwait]; exact RunState.noConfusion
    cases runCase_of_step h with
    | same hrun => exact absurd (hrun.trans hwait) hleft
    | wakes hkey => exact .inl hkey
    | resets rest hp => exact .inr ⟨rest, hp⟩
    | callOverflows _ hfrom | retUnderflows hfrom | waits _ hfrom => exact absurd hfrom hnotRun
    | loadOverflows _ _ _ hopen => exact absurd (hinv.load_open hopen) hnotRun

/-! ## The reports -/

/-- Settles O57: only a cycle that finds an unknown word writes `diag`. -/
theorem atMostOneReportAStep : Obligations.AtMostOneReportAStep := by
  intro s t h
  have hquiet : ∀ {P : Prop} {l : List DiagEvent}, ¬ P → t.diag = s.diag → (P → t.diag = l) ∧ (¬ P → t.diag = s.diag) :=
    fun hP hdiag => ⟨fun hP' => absurd hP' hP, fun _ => hdiag⟩
  cases stepCase_of_step h with
  | executes u i hu hrun hdec hexec =>
    obtain ⟨-, -, -, -, hdiag, -, -⟩ := exec_ports hexec
    refine hquiet (fun ⟨_, hnone, _⟩ => ?_) (hdiag.trans hu.diag_eq)
    cases hdec.symm.trans hnone
  | reports u hu hrun hdec ht =>
    refine ⟨fun _ => ?_, fun hnot => absurd ⟨hrun, hdec, hu.scheduled⟩ hnot⟩
    rw [ht, State.diag_unknownWord, hu.diag_eq, hu.pc_eq, setWidth_eq_ofNat]
  | polls u hu hrun ht =>
    refine hquiet (fun ⟨hrun', _⟩ => by cases hrun.symm.trans hrun') ?_
    rcases u.pollWait_cases with ⟨-, hpoll⟩ | ⟨-, hpoll⟩ <;> rw [ht, hpoll] <;> exact hu.diag_eq
  | ignores hu hrun => exact hquiet (fun ⟨hrun', _⟩ => by cases hrun.symm.trans hrun') hu.diag_eq
  | resets _ hp ht | loads _ _ hp _ ht | overflows _ _ hp _ _ ht | ticks _ hp ht | acknowledges _ hp ht =>
    exact hquiet (fun ⟨_, _, hscheduled⟩ => by simp [hp] at hscheduled) (ht ▸ rfl)

/-! ## The edges of the tone (60_exceptions.md R184) -/

theorem toneEdge_eq_ite (s t : State) :
    toneEdge s t = if s.ST = 0 then (if t.ST = 0 then none else some .rising) else (if t.ST = 0 then some .falling else none) := by
  by_cases hs : s.ST = 0 <;> by_cases ht : t.ST = 0
  · rw [toneEdge, State.toneActive_of_zero hs, State.toneActive_of_zero ht, if_pos hs, if_pos ht]
  · rw [toneEdge, State.toneActive_of_zero hs, State.toneActive_of_ne_zero ht, if_pos hs, if_neg ht]
  · rw [toneEdge, State.toneActive_of_ne_zero hs, State.toneActive_of_zero ht, if_neg hs, if_pos ht]
  · rw [toneEdge, State.toneActive_of_ne_zero hs, State.toneActive_of_ne_zero ht, if_neg hs, if_neg ht]

theorem toneEdge_eq_rising_iff (s t : State) : toneEdge s t = some .rising ↔ s.ST = 0 ∧ t.ST ≠ 0 := by
  rw [toneEdge_eq_ite]
  split <;> split <;> simp_all

theorem toneEdge_eq_falling_iff (s t : State) : toneEdge s t = some .falling ↔ s.ST ≠ 0 ∧ t.ST = 0 := by
  rw [toneEdge_eq_ite]
  split <;> split <;> simp_all

theorem byte_eq_zero_iff (b : Byte) : b = 0 ↔ b.toNat = 0 :=
  BitVec.toNat_inj.symm

/-- A `Tick` ends the tone when it takes the sound timer from 1. -/
theorem toneEdge_tick (s : State) : toneEdge s s.tick = if s.ST.toNat = 1 then some .falling else none := by
  simp only [toneEdge_eq_ite, State.ST_tick, byte_eq_zero_iff, toNat_timerTick]
  obtain h | h | h : s.ST.toNat = 0 ∨ s.ST.toNat = 1 ∨ 2 ≤ s.ST.toNat := by omega
  · simp [h]
  · simp [h]
  · rw [if_neg (by omega), if_neg (by omega), if_neg (by omega)]

theorem State.ST_pollWait (s : State) : s.pollWait.ST = s.ST := by
  rcases s.pollWait_cases with ⟨-, hpoll⟩ | ⟨-, hpoll⟩ <;> exact hpoll ▸ rfl

theorem State.ST_load {s t : State} {bytes : List Byte} (h : s.load bytes = .next t) : t.ST = s.ST := by
  obtain ⟨-, ⟨-, rfl⟩ | ⟨-, rfl⟩⟩ := State.load_cases h <;> rfl

/-- Settles O58: an edge needs a change of `ST`, which only the named events make. -/
theorem toneEdgesComeFromNamedEvents : Obligations.ToneEdgesComeFromNamedEvents := by
  refine ⟨fun i s t he hi => ?_, fun x s t he => ?_, toneEdge_tick, fun s => toneEdge_eq_ite s s.resetEvent, fun s w => ?_,
    fun s t bytes h => toneEdge_of_same (State.ST_load h)⟩
  · obtain ⟨-, -, -, -, -, hST | ⟨x, rfl⟩⟩ := stateElementsHaveNamedWriters i s t he
    · exact toneEdge_of_same hST
    · exact absurd rfl (hi x)
  · cases he
    exact ⟨toneEdge_eq_rising_iff .., toneEdge_eq_falling_iff ..⟩
  · exact ⟨toneEdge_of_same rfl, toneEdge_of_same s.ST_pollWait, toneEdge_of_same rfl⟩

end Sys2Proof.Machine
end

section
/-!
PROOFS. The invariant (10_state.md R42): it holds after reset, each operation keeps it, and so does every step.
-/

namespace Sys2Proof.Machine

open Sys2Proof

/-! ## What the invariant speaks of -/

/-- The elements `State.Inv` speaks of. -/
def State.invView (s : State) : Word × Word × Vector Word 16 × Memory × Option Fatal × RunState × Params × Bool :=
  (s.pc, s.I, s.stack, s.mem, s.fault, s.run, s.params, s.loadOpen)

/-- Two states that agree on these elements meet the invariant together. -/
theorem State.Inv.congr {s t : State} (h : s.Inv) (hview : t.invView = s.invView) : t.Inv := by
  simp only [State.invView, Prod.mk.injEq] at hview
  obtain ⟨hpc, hI, hstack, hmem, hfault, hrun, hparams, hopen⟩ := hview
  exact
    { pc_lt := hpc ▸ h.pc_lt
      i_lt := hI ▸ h.i_lt
      stack_lt := hstack ▸ h.stack_lt
      glyph := hmem ▸ h.glyph
      fault_iff := hfault ▸ hrun ▸ h.fault_iff
      mem_wf := hmem ▸ hparams ▸ h.mem_wf
      load_open := hopen ▸ hrun ▸ h.load_open }

/-! ## Each operation keeps it -/

section
variable {s : State} (h : s.Inv)
include h

theorem State.Inv.setPc (a : Nat) : (s.setPc a).Inv :=
  { h with pc_lt := by rw [State.toNat_pc_setPc]; exact Nat.mod_lt _ (by decide) }

theorem State.Inv.setI (a : Nat) : (s.setI a).Inv :=
  { h with i_lt := by rw [State.toNat_I_setI]; exact Nat.mod_lt _ (by decide) }

theorem State.Inv.writeBytes (a : Nat) (bs : List Byte) : (s.writeBytes a bs).Inv :=
  { h with
    glyph := Memory.writeBytes_glyphIntact bs a h.glyph
    mem_wf := Memory.writeBytes_wf bs a h.mem_wf }

/-- A word below 4096 pushed. -/
theorem State.Inv.setStack {w : Word} (hw : w.toNat < 4096) (k : Nat) (hk : k < 16) (sp : Fin 17) :
    ({ s with stack := s.stack.set k w hk, SP := sp } : State).Inv :=
  { h with
    stack_lt := fun j => by
      simp only [Fin.getElem_fin, Vector.getElem_set]
      split
      · exact hw
      · exact h.stack_lt j }

/-- Once a `Load` has no meaning any more. -/
theorem State.Inv.closeLoad : ({ s with loadOpen := false } : State).Inv :=
  { h with load_open := fun hopen => nomatch hopen }

/-- A fatal condition is recorded as the core halts. -/
theorem State.Inv.raise (f : Fatal) : ({ s.raise f with loadOpen := false } : State).Inv :=
  { h.closeLoad with
    fault_iff := ⟨fun _ => rfl, fun _ => Option.some_ne_none f⟩
    load_open := fun hopen => nomatch hopen }

/-- A running core starts to wait, or a waiting one runs on. -/
theorem State.Inv.setRun (hrun : s.run ≠ .halt) {r : RunState} (hr : r ≠ .halt) (hclosed : s.loadOpen = false) :
    ({ s with run := r } : State).Inv :=
  { h with
    fault_iff := ⟨fun hfault => absurd (h.fault_iff.mp hfault) hrun, fun hhalt => absurd hhalt hr⟩
    load_open := fun hopen => nomatch hclosed.symm.trans hopen }

end

/-- Settles O48: the reset values, memory with nothing listed. -/
theorem resetMeetsTheInvariant : Obligations.ResetMeetsTheInvariant := fun p =>
  { pc_lt := show State.reset.pc.toNat < Config.memSize by decide
    i_lt := show State.reset.I.toNat < Config.memSize by decide
    stack_lt := show ∀ k : Fin 16, State.reset.stack[k].toNat < Config.memSize by decide
    glyph := Memory.glyphIntact_nil
    fault_iff := ⟨fun hfault => absurd rfl hfault, fun hhalt => nomatch hhalt⟩
    mem_wf := Memory.wf_nil
    load_open := fun _ => rfl }

/-! ## Every step keeps it -/

/-- An instruction executed by a running core keeps the invariant. -/
theorem exec_inv {i : Instr} {s t : State} (h : s.Inv) (hrun : s.run = .run) (hclosed : s.loadOpen = false)
    (he : exec i s = .next t) : t.Inv := by
  have hraise : ∀ f, (s.raise f).Inv := fun f => (h.raise f).congr (by simp [State.invView, hclosed])
  cases i with
  | call nnn =>
    rcases exec_call_cases nnn s with ⟨-, he'⟩ | ⟨hlt, he'⟩ <;> cases eq_of_exec_eq he he'
    · exact hraise _
    · refine State.Inv.setPc (h.setStack ?_ _ hlt _) _
      rw [toNat_masked]
      exact Nat.mod_lt _ (by decide)
  | ret =>
    rcases exec_ret_cases s with ⟨-, he'⟩ | ⟨_, he'⟩ <;> cases eq_of_exec_eq he he'
    · exact hraise _
    · refine State.Inv.setPc ?_ _
      exact h.congr rfl
  | ldVKey x =>
    cases he
    exact (h.setRun (r := .wait) (by rw [hrun]; exact RunState.noConfusion) RunState.noConfusion hclosed).congr rfl
  | ldI | addI | ldF =>
    cases he
    exact (h.setI _).setPc _
  | ldB | stRegs =>
    cases he
    exact (h.writeBytes _ _).setPc _
  | seK | sneK | seV | sneV | skp | sknp =>
    cases he
    rw [State.skipIf_eq_setPc]
    exact h.setPc _
  | _ =>
    cases he
    refine State.Inv.setPc ?_ _
    exact h.congr rfl

/-- The inputs of a `Step` keep the invariant. -/
theorem AtCycle.inv {s u : State} (hu : AtCycle s u) (h : s.Inv) : u.Inv :=
  h.closeLoad.congr (by rw [hu.eq]; rfl)

/-- A poll keeps the invariant. -/
theorem State.Inv.pollWait {s : State} (h : s.Inv) (hrun : s.run = .wait) (hclosed : s.loadOpen = false) : s.pollWait.Inv := by
  rcases s.pollWait_cases with ⟨-, hpoll⟩ | ⟨-, hpoll⟩ <;> rw [hpoll]
  · exact h.congr rfl
  · refine State.Inv.setPc ?_ _
    exact (h.setRun (r := .run) (by rw [hrun]; exact RunState.noConfusion) RunState.noConfusion hclosed).congr rfl

theorem State.params_pollWait (s : State) : s.pollWait.params = s.params := by
  rcases s.pollWait_cases with ⟨-, hpoll⟩ | ⟨-, hpoll⟩ <;> exact hpoll ▸ rfl

theorem AtCycle.loadOpen_eq {s u : State} (hu : AtCycle s u) : u.loadOpen = false := by rw [hu.eq]
theorem AtCycle.params_eq {s u : State} (hu : AtCycle s u) : u.params = s.params := by rw [hu.eq]

/-- Settles O49: by the cases of a step. -/
theorem everyStepKeepsTheInvariant : Obligations.EveryStepKeepsTheInvariant := by
  intro s t h hstep
  cases stepCase_of_step hstep with
  | executes u i hu hrun hdec hexec =>
    obtain ⟨-, -, -, -, -, -, hparams⟩ := exec_ports hexec
    exact ⟨exec_inv (hu.inv h) (hu.run_eq.trans hrun) hu.loadOpen_eq hexec, hparams.trans hu.params_eq⟩
  | reports u hu hrun hdec ht =>
    subst ht
    refine ⟨State.Inv.setPc ?_ _, hu.params_eq⟩
    exact (hu.inv h).congr rfl
  | polls u hu hrun ht =>
    subst ht
    exact ⟨(hu.inv h).pollWait (hu.run_eq.trans hrun) hu.loadOpen_eq, u.params_pollWait.trans hu.params_eq⟩
  | ignores hu hrun => exact ⟨hu.inv h, hu.params_eq⟩
  | resets rest hp ht =>
    subst ht
    exact ⟨(resetMeetsTheInvariant s.params).congr rfl, rfl⟩
  | loads bytes rest hp hopen ht =>
    subst ht
    exact ⟨(h.writeBytes 0x200 bytes).closeLoad.congr rfl, rfl⟩
  | overflows bytes rest hp hopen hlen ht =>
    subst ht
    exact ⟨(h.raise .capacityExceeded).congr rfl, rfl⟩
  | ticks rest hp ht | acknowledges rest hp ht =>
    subst ht
    exact ⟨h.congr rfl, rfl⟩

end Sys2Proof.Machine
end
